-- ==== Sys2Proof/Word.lean ====
section
/-!
DEFINITION. Word.lean: the bit fields of the block (00_scope.md R6, 20_memory.md R31, R32, 30_encoding.md R45).
`value`, `min_val` and `max_val` are not bit vectors: the rules of 41_ranged_counter.md are over the
mathematical integers (R95), and a finite width only bounds what a register can hold (R97).
-/

namespace Sys2Proof

/-- The command word `cw` (R45). -/
abbrev CmdWord := BitVec 8

/-- A sample code, channel A in bit 1 and channel B in bit 0 (R36). -/
abbrev Code := BitVec 2

/-- A linear ROM address `4*state + code` (R31). -/
abbrev RomAddr := BitVec 5

/-- A transition-table entry (R32): bit 5 ccw, bit 4 cw, bit 3 always 0, bits 2:0 the next state. -/
abbrev Entry := BitVec 6

end Sys2Proof
end

