-- ==== Sys2Proof/Config.lean ====
section
/-!
DEFINITION. Config.lean: the OPEN parameters of an instance of the block (00_scope.md R6,
70_reset_and_hazards.md R150, R151) and the named set that `State.reset` uses.
-/

namespace Sys2Proof

/-- The range policies of `mode` (10_state.md R16). Code 3 is never stored, so it has no constructor
(DEDUCED, safe: log 11). -/
inductive RangeMode where
  | unbounded
  | wrap
  | bounded
  deriving DecidableEq, Repr

/-- The parameter `W` (R6): a number of bits, or `inf`. -/
inductive Width where
  | inf
  | bits (n : Nat)
  deriving DecidableEq, Repr

/-- R6: `W` is "natural number >= 2, or `inf`". -/
def Width.legal : Width → Bool
  | .inf => true
  | .bits n => decide (2 ≤ n)

/-- Whether a W-bit signed register or port can hold `x` (R97: MINW = -2^(W-1), MAXW = 2^(W-1)-1). -/
def Width.represents (w : Width) (x : Int) : Bool :=
  match w with
  | .inf => true
  | .bits n => decide (-(2 ^ (n - 1)) ≤ x ∧ x ≤ 2 ^ (n - 1) - 1)

/-- The construction parameters of an instance (R6, R150). -/
structure Params where
  width : Width
  initValue : Int
  initMin : Int
  initMax : Int
  initRev : Bool
  initMode : RangeMode
  deriving DecidableEq, Repr

/-- R151: the parameter sets that are an instance of this hardware. -/
abbrev Params.Valid (p : Params) : Prop :=
  p.width.legal = true ∧ p.width.represents p.initValue = true ∧ p.width.represents p.initMin = true ∧
    p.width.represents p.initMax = true ∧ (p.initMode ≠ .unbounded → p.initMin ≤ p.initMax)

/-- The parameters of `State.reset`. DESIGN CHOICE, unsafe (logs 2 and 3): the spec gives no value of any
of them. -/
def Params.standard : Params where
  width := .inf
  initValue := 0
  initMin := 0
  initMax := 0
  initRev := false
  initMode := .unbounded

end Sys2Proof
end

