-- ==== Sys2Proof/Syntax.lean ====
section
/-!
DEFINITION. Syntax.lean: the seven commands (30_encoding.md R46) and what the environment presents with one
(R45, R49).
-/

namespace Sys2Proof

/-- A direction (10_state.md R19, 30_encoding.md R48). The code 11 is not a direction. -/
inductive Direction where
  | none
  | clockwise
  | counterClockwise
  deriving DecidableEq, Repr

/-- One presentation on the command port: the command word and the five CFG operand ports (30_encoding.md
section 1). An operand port carries a signed W-bit word, held here as the integer it stands for. -/
structure Command where
  cw : CmdWord
  cfgValue : Int
  cfgMin : Int
  cfgMax : Int
  cfgReverse : Bool
  cfgMode : BitVec 2
  deriving DecidableEq, Repr

/-- The commands. -/
inductive Instr where
  /-- NOP (R115). -/
  | nop
  /-- STEP with the levels of channels A and B (R116, R47). -/
  | step (a b : Bool)
  /-- APPLY with a direction (R117). -/
  | apply (d : Direction)
  /-- READ (R118). -/
  | read
  /-- DRST (R119). -/
  | drst
  /-- CRST (R120). -/
  | crst
  /-- CFG with the supplied arguments (R121, R49): `none` where the write-enable is 0. The mode operand is
  the 2-bit code, since code 3 can be supplied and is rejected by the command itself. -/
  | cfg (value minVal maxVal : Option Int) (reverse : Option Bool) (mode : Option (BitVec 2))
  deriving DecidableEq, Repr

/-- The classes of reserved command words (R52). -/
inductive Reserved where
  /-- `op` = 111. -/
  | opcode111
  /-- Formats N, S, D with any of bits 4:2 set. -/
  | upperField
  /-- Format N with bit 1 or bit 0 set. -/
  | lowerField
  /-- APPLY with `d` = 11. -/
  | direction11
  deriving DecidableEq, Repr

/-- A row of the command table R46: a word belongs to the row when `cw & mask = pattern`. -/
structure CommandRow where
  mnemonic : String
  pattern : CmdWord
  mask : CmdWord
  deriving DecidableEq, Repr

end Sys2Proof
end

