-- ==== Sys2Proof/WellFormed.lean ====
section
/-!
DEFINITION. WellFormed.lean: the commands a port of width W can carry (30_encoding.md R49: `cfg_value`,
`cfg_min` and `cfg_max` are signed W-bit words used at full width).
-/

namespace Sys2Proof

/-- An operand that is not supplied is ignored, whatever its port carries (R49). -/
def operandFits (w : Width) : Option Int → Bool
  | none => true
  | some x => w.represents x

/-- Every operand the command uses is a W-bit word. The other commands have no W-bit operand. -/
def Instr.wellFormed (w : Width) : Instr → Bool
  | .nop => true
  | .step _ _ => true
  | .apply _ => true
  | .read => true
  | .drst => true
  | .crst => true
  | .cfg v n x _ _ => operandFits w v && operandFits w n && operandFits w x

end Sys2Proof
end

