-- ==== Sys2Proof/Decode.lean ====
section
/-!
DEFINITION. Decode.lean: command words to commands and back (30_encoding.md R45 to R49, R52), the command
table R46, and the textual syntax R56, R57.
-/

namespace Sys2Proof

/-- R48: `d[0]` clockwise, `d[1]` counter-clockwise. -/
def Direction.code : Direction → BitVec 2
  | .none => 0b00#2
  | .clockwise => 0b01#2
  | .counterClockwise => 0b10#2

/-- R48: 11 is not a direction. -/
def Direction.ofCode (d : BitVec 2) : Option Direction :=
  if d = 0b00#2 then some .none
  else if d = 0b01#2 then some .clockwise
  else if d = 0b10#2 then some .counterClockwise
  else Option.none

/-- 10_state.md R16. -/
def RangeMode.code : RangeMode → BitVec 2
  | .unbounded => 0#2
  | .wrap => 1#2
  | .bounded => 2#2

/-- R16: the pattern 3 is reserved. -/
def RangeMode.ofCode (m : BitVec 2) : Option RangeMode :=
  if m = 0#2 then some .unbounded
  else if m = 1#2 then some .wrap
  else if m = 2#2 then some .bounded
  else none

/-- Bits 7:5 (R45). -/
def Command.op (c : Command) : BitVec 3 := c.cw.extractLsb' 5 3

/-- Bits 4:2, which formats N, S and D keep at 000 (R45). -/
def Command.upper (c : Command) : BitVec 3 := c.cw.extractLsb' 2 3

/-- Bits 1:0. -/
def Command.lower (c : Command) : BitVec 2 := c.cw.extractLsb' 0 2

/-- Formats S and D: bits 4:2 are 000, bits 1:0 are the operand. -/
def decodeLower (c : Command) (i : Except Reserved Instr) : Except Reserved Instr :=
  if c.upper = 0#3 then i else .error .upperField

/-- Format N: bits 4:0 are all 0. -/
def decodeNoOperand (c : Command) (i : Instr) : Except Reserved Instr :=
  decodeLower c (if c.lower = 0#2 then .ok i else .error .lowerField)

/-- R49: an argument is supplied exactly when its write-enable is 1. -/
def supplied {α : Type} (we : Bool) (port : α) : Option α :=
  if we then some port else none

/-- R46: the command a presentation stands for, or the class of reserved words (R52) it belongs to. -/
def decode (c : Command) : Except Reserved Instr :=
  if c.op = 0b000#3 then decodeNoOperand c .nop
  else if c.op = 0b001#3 then decodeLower c (.ok (.step (c.cw.getLsbD 1) (c.cw.getLsbD 0)))
  else if c.op = 0b010#3 then
    decodeLower c (match Direction.ofCode c.lower with
      | some d => .ok (.apply d)
      | none => .error .direction11)
  else if c.op = 0b011#3 then decodeNoOperand c .read
  else if c.op = 0b100#3 then decodeNoOperand c .drst
  else if c.op = 0b101#3 then decodeNoOperand c .crst
  else if c.op = 0b110#3 then
    .ok (.cfg (supplied (c.cw.getLsbD 4) c.cfgValue) (supplied (c.cw.getLsbD 3) c.cfgMin)
      (supplied (c.cw.getLsbD 2) c.cfgMax) (supplied (c.cw.getLsbD 1) c.cfgReverse)
      (supplied (c.cw.getLsbD 0) c.cfgMode))
  else .error .opcode111

/-- A command word with every operand port at zero. -/
def Command.ofWord (cw : CmdWord) : Command where
  cw := cw
  cfgValue := 0
  cfgMin := 0
  cfgMax := 0
  cfgReverse := false
  cfgMode := 0#2

/-- The word of an operation code and its own field (R45). -/
def opWord (op : BitVec 3) (field : BitVec 5) : CmdWord := op ++ field

/-- R46, R49: the presentation of a command; the ports of arguments that are not supplied are zero. -/
def encode : Instr → Command
  | .nop => .ofWord (opWord 0b000#3 0#5)
  | .step a b => .ofWord (opWord 0b001#3 (0#3 ++ BitVec.ofBool a ++ BitVec.ofBool b))
  | .apply d => .ofWord (opWord 0b010#3 (0#3 ++ d.code))
  | .read => .ofWord (opWord 0b011#3 0#5)
  | .drst => .ofWord (opWord 0b100#3 0#5)
  | .crst => .ofWord (opWord 0b101#3 0#5)
  | .cfg v n x r m =>
    { cw := opWord 0b110#3 (BitVec.ofBool v.isSome ++ BitVec.ofBool n.isSome ++ BitVec.ofBool x.isSome ++
        BitVec.ofBool r.isSome ++ BitVec.ofBool m.isSome)
      cfgValue := v.getD 0
      cfgMin := n.getD 0
      cfgMax := x.getD 0
      cfgReverse := r.getD false
      cfgMode := m.getD 0#2 }

/-- The command table of R46, row by row. -/
def commandTable : List CommandRow :=
  [⟨"NOP", 0x00#8, 0xFF#8⟩, ⟨"STEP", 0x20#8, 0xFC#8⟩, ⟨"APPLY", 0x40#8, 0xFC#8⟩, ⟨"READ", 0x60#8, 0xFF#8⟩] ++
  [⟨"DRST", 0x80#8, 0xFF#8⟩, ⟨"CRST", 0xA0#8, 0xFF#8⟩, ⟨"CFG", 0xC0#8, 0xE0#8⟩]

/-- R46: `(cw & mask) == match`. -/
def CommandRow.holds (r : CommandRow) (cw : CmdWord) : Bool := cw &&& r.mask == r.pattern

/-- R46: the first row a word belongs to, "with the one extra condition on APPLY that `cw[1:0]` != 11". -/
def tableRow (cw : CmdWord) : Option CommandRow :=
  commandTable.find? fun r => r.holds cw && !(r.mnemonic == "APPLY" && cw.extractLsb' 0 2 == 0b11#2)

/-- The table's name of a command. -/
def Instr.mnemonic : Instr → String
  | .nop => "NOP"
  | .step _ _ => "STEP"
  | .apply _ => "APPLY"
  | .read => "READ"
  | .drst => "DRST"
  | .crst => "CRST"
  | .cfg _ _ _ _ _ => "CFG"

/-- The decoder's answer for a table word (R55: a command is one 8-bit word, so `nbits` is always 8), with
the operand ports at zero. -/
def decodeTableWord (_nbits w : Nat) : Option Instr :=
  if w < 256 then (decode (.ofWord (BitVec.ofNat 8 w))).toOption else none

/-- R56: a level or a flag as one digit. -/
def bitText (b : Bool) : String := if b then "1" else "0"

/-- R56: a key that is not written is not supplied. -/
def keyText (key : String) : Option String → String
  | none => ""
  | some v => " " ++ key ++ "=" ++ v

/-- R56: U, W, B are the codes 0, 1, 2. -/
def modeText (m : BitVec 2) : String :=
  if m = 0#2 then "U" else if m = 1#2 then "W" else if m = 2#2 then "B" else "3"

/-- R56: the operand of APPLY. -/
def Direction.text : Direction → String
  | .none => "NONE"
  | .clockwise => "CW"
  | .counterClockwise => "CCW"

/-- R56: the one-line textual form of a command. -/
def Instr.text : Instr → String
  | .nop => "NOP"
  | .step a b => "STEP " ++ bitText a ++ bitText b
  | .apply d => "APPLY " ++ d.text
  | .read => "READ"
  | .drst => "DRST"
  | .crst => "CRST"
  | .cfg v n x r m =>
    "CFG" ++ keyText "value" (v.map toString) ++ keyText "min" (n.map toString) ++ keyText "max" (x.map toString) ++
      keyText "reverse" (r.map bitText) ++ keyText "mode" (m.map modeText)

/-- R57 DETENT.CW: one clean clockwise detent from the rest code to the rest code. -/
def detentCw : List Instr := [.step true false, .step false false, .step false true, .step true true]

/-- R57 DETENT.CCW. -/
def detentCcw : List Instr := [.step false true, .step false false, .step true false, .step true true]

/-- R57 CFG.ALL: load the whole configuration. -/
def cfgAll (value minVal maxVal : Int) (reverse : Bool) (mode : BitVec 2) : Instr :=
  .cfg (some value) (some minVal) (some maxVal) (some reverse) (some mode)

/-- R57 CFG.NONE: reset the decoder through the configure path. -/
def cfgNone : Instr := .cfg none none none none none

end Sys2Proof
end

