-- ==== Sys2Proof/Machine/State.lean ====
section
/-!
DEFINITION. Machine/State.lean: the state of the block (10_state.md R10), the response and the inputs of its
ports (30_encoding.md section 1), the reasons a step can stop, and the state after reset (R24, R150).
-/

namespace Sys2Proof.Machine

/-- The contents of the 3-bit register `state` (R11, R12): "All eight 3-bit patterns are legal contents". -/
inductive QState where
  | start
  | cw1
  | cw2
  | cw3
  | ccw1
  | ccw2
  | ccw3
  | illegal
  deriving DecidableEq, Repr

/-- The error field of a response (R53, R131, R132). -/
inductive ErrCode where
  | ok
  | errCmd
  | errMode
  | errRange
  deriving DecidableEq, Repr

/-- The response of a command (R53). -/
structure Response where
  dir : Direction
  err : ErrCode
  rdata : Int
  deriving DecidableEq, Repr

/-- What the environment presents in one step: a command, or an assertion of the hardware reset input (R150),
which "may occur in any state" between commands (DESIGN CHOICE, log 12). -/
inductive Input where
  | command (c : Command)
  | reset
  deriving DecidableEq, Repr

/-- The merged configuration of a CFG (R100), an intermediate of that command and no part of the state. -/
structure Merged where
  value : Int
  minVal : Int
  maxVal : Int
  rev : Bool
  mode : BitVec 2
  deriving DecidableEq, Repr

/-- The state: the six registers of R10, the parameters of the instance (R6, log 1), the response of the
latest command (log 5) and the inputs still to be presented, oldest first (log 4). -/
structure State where
  state : QState
  value : Int
  minVal : Int
  maxVal : Int
  rev : Bool
  mode : RangeMode
  params : Params
  resp : Option Response
  inputs : List Input
  deriving DecidableEq, Repr

/-- No fault stops the block: every error of the spec is a response in a next state (R5, R130 to R137). -/
inductive Fault where
  deriving DecidableEq, Repr

/-- The situations that have no successor state. -/
inductive Refusal where
  /-- Raised by the dispatcher for a command that has no meaning yet. Safe. -/
  | notModelled (mnemonic : String)
  /-- Raised by STEP (on an emission) and APPLY in Unbounded mode when a finite W cannot hold the sum: "a
  model must treat it as refused" (R97). Safe. -/
  | unboundedOverflow
  /-- Raised by STEP (on an emission) and APPLY in Wrap or Bounded mode when `min_val > max_val`: "must treat
  an apply on it as refused" (R104). No run of a valid instance reaches it. Safe. -/
  | invertedBounds
  /-- Raised by the step when a presented CFG supplies an operand that a W-bit port cannot carry (R49).
  DESIGN CHOICE (log 6). Safe. -/
  | operandNotRepresentable
  deriving DecidableEq, Repr

/-- R24, R150: an instance right after hardware reset. The response outputs have no reset value (R24). -/
def State.construct (p : Params) : State where
  state := .start
  value := p.initValue
  minVal := p.initMin
  maxVal := p.initMax
  rev := p.initRev
  mode := p.initMode
  params := p
  resp := none
  inputs := []

/-- The machine right after reset, for the parameters that logs 2 and 3 name. -/
def State.reset : State := State.construct Params.standard

end Sys2Proof.Machine
end

