-- ==== Sys2Proof/Machine/Operands.lean ====
section
/-!
DEFINITION. Machine/Operands.lean: the codes of `state` (10_state.md R12), operand assembly (30_encoding.md R47,
R50), the transition-table ROM (20_memory.md R30 to R32, 40_decoder_fsm.md R70) and the arithmetic of
00_scope.md R7.
-/

namespace Sys2Proof.Machine

/-- R12. -/
def QState.code : QState → BitVec 3
  | .start => 0#3
  | .cw1 => 1#3
  | .cw2 => 2#3
  | .cw3 => 3#3
  | .ccw1 => 4#3
  | .ccw2 => 5#3
  | .ccw3 => 6#3
  | .illegal => 7#3

/-- R12. -/
def QState.ofCode (c : BitVec 3) : QState :=
  if c = 0#3 then .start
  else if c = 1#3 then .cw1
  else if c = 2#3 then .cw2
  else if c = 3#3 then .cw3
  else if c = 4#3 then .ccw1
  else if c = 5#3 then .ccw2
  else if c = 6#3 then .ccw3
  else .illegal

/-- R141: the observation output `q_state[2:0]`. -/
def State.qState (s : State) : BitVec 3 := s.state.code

/-- R47: the source's packing `(channel_a << 1) | channel_b`. -/
def sampleCode (a b : Bool) : Code :=
  ((BitVec.ofBool a).setWidth 2 <<< 1) ||| (BitVec.ofBool b).setWidth 2

/-- R31: `{state[2:0], code[1:0]}`. -/
def romAddr (q : QState) (c : Code) : RomAddr := q.code ++ c

/-- R70, "as a linear ROM image, address `4*state + code` from 0 to 31"; one piece a row of the table. -/
def romImage : List Entry :=
  [0x00#6, 0x04#6, 0x01#6, 0x00#6] ++   -- START
  [0x02#6, 0x00#6, 0x01#6, 0x00#6] ++   -- CW_1
  [0x02#6, 0x03#6, 0x01#6, 0x00#6] ++   -- CW_2
  [0x02#6, 0x03#6, 0x00#6, 0x10#6] ++   -- CW_3
  [0x05#6, 0x04#6, 0x00#6, 0x00#6] ++   -- CCW_1
  [0x05#6, 0x04#6, 0x06#6, 0x00#6] ++   -- CCW_2
  [0x05#6, 0x00#6, 0x06#6, 0x20#6] ++   -- CCW_3
  [0x00#6, 0x00#6, 0x00#6, 0x00#6]      -- ILLEGAL

/-- R31: `MemRead(addr, 6)`. Every address holds an entry: there is none outside 0..31. -/
def memRead (a : RomAddr) : Entry := romImage[a.toNat]'a.isLt

/-- R31: `TABLE[s][c]`. -/
def table (q : QState) (c : Code) : Entry := memRead (romAddr q c)

/-- R51: bits 2:0 of an entry are the next state. -/
def entryNext (e : Entry) : QState := QState.ofCode (e.extractLsb' 0 3)

/-- R7, R15: +1 if `rev` = 0, -1 if `rev` = 1. -/
def sign (rev : Bool) : Int := if rev then -1 else 1

/-- R50: the signed increment of a direction; None forms no increment. -/
def increment (d : Direction) (rev : Bool) : Option Int :=
  match d with
  | .none => none
  | .clockwise => some (1 * sign rev)
  | .counterClockwise => some (-1 * sign rev)

/-- R7: floor division. -/
def fdiv (x m : Int) : Int := Int.fdiv x m

/-- R7, R95: floored modulo, `x - m*fdiv(x, m)`. -/
def fmod (x m : Int) : Int := x - m * fdiv x m

/-- R7, R96. -/
def clamp (x lo hi : Int) : Int := if x < lo then lo else if x > hi then hi else x

end Sys2Proof.Machine
end

