-- ==== Sys2Proof/Machine/Flags.lean ====
section
/-!
DEFINITION. Machine/Flags.lean: the transient results of a command (10_state.md R19, R23) and their codes on the
response port (30_encoding.md R48, R53).
-/

namespace Sys2Proof.Machine

/-- R51, R65: the direction a table entry reports, bit 4 clockwise, bit 5 counter-clockwise. No entry carries
both flags (R86), so the order of the two tests decides nothing (log 15). -/
def entryDir (e : Entry) : Direction :=
  if e.getLsbD 4 then .clockwise else if e.getLsbD 5 then .counterClockwise else .none

/-- R53. -/
def ErrCode.code : ErrCode → BitVec 2
  | .ok => 0#2
  | .errCmd => 1#2
  | .errMode => 2#2
  | .errRange => 3#2

/-- R53: `resp(00, OK, 0)`. -/
def okResponse : Response := ⟨.none, .ok, 0⟩

/-- R53: the response of a STEP, `resp(d, OK, 0)`. -/
def dirResponse (d : Direction) : Response := ⟨d, .ok, 0⟩

/-- R53: the response of an accepted READ, `resp(00, OK, value)`. -/
def readResponse (v : Int) : Response := ⟨.none, .ok, v⟩

/-- R136: the response of a rejected command, `resp(00, err, 0)`. -/
def errResponse (e : ErrCode) : Response := ⟨.none, e, 0⟩

end Sys2Proof.Machine
end

