-- ==== Sys2Proof/Machine/Ops.lean ====
section
/-!
DEFINITION. Machine/Ops.lean: the operations on the state that the commands share: register writes, the
rejection of a command (60_exceptions.md R136), the two unit operations of the decoder (40_decoder_fsm.md R65,
R79), C.APPLY (41_ranged_counter.md R90 to R94, R97, R104), C.CONFIGURE (R100 to R102) and hardware reset (R150).
-/

namespace Sys2Proof.Machine

/-- `state <- q`. -/
def State.setState (s : State) (q : QState) : State := { s with state := q }

/-- `value <- v`. -/
def State.setValue (s : State) (v : Int) : State := { s with value := v }

/-- The command's response (R53). -/
def State.respond (s : State) (r : Response) : State := { s with resp := some r }

/-- The inputs that remain after one has been taken. -/
def State.setInputs (s : State) (l : List Input) : State := { s with inputs := l }

/-- `raise`, R136: no register changes; the only effect is `resp(00, err, 0)`. There is no handler and nothing
to return from (R137). -/
def raiseErr (e : ErrCode) (s : State) : Host.Outcome State Fault Refusal := .next (s.respond (errResponse e))

/-- Q.RST (R79). -/
def qRst (s : State) : State := s.setState .start

/-- Q.STEP (R65): the direction decided, and the state afterwards. -/
def qStep (a b : Bool) (s : State) : Direction × State :=
  let e := table s.state (sampleCode a b)
  (entryDir e, s.setState (entryNext e))

/-- R92, R97: the sum, refused where a finite W cannot hold it. -/
def unboundedValue (s : State) (incr : Int) : Except Refusal Int :=
  if s.params.width.represents (s.value + incr) then .ok (s.value + incr) else .error .unboundedOverflow

/-- R93; R104 where the bounds are inverted. -/
def wrapValue (s : State) (incr : Int) : Except Refusal Int :=
  if s.minVal ≤ s.maxVal then
    .ok (s.minVal + fmod (s.value + incr - s.minVal) (s.maxVal - s.minVal + 1))
  else .error .invertedBounds

/-- R94; R104 where the bounds are inverted. -/
def boundedValue (s : State) (incr : Int) : Except Refusal Int :=
  if s.minVal ≤ s.maxVal then .ok (clamp (s.value + incr) s.minVal s.maxVal) else .error .invertedBounds

/-- R90: the case analysis on `mode`. -/
def policyValue (s : State) (incr : Int) : Except Refusal Int :=
  match s.mode with
  | .unbounded => unboundedValue s incr
  | .wrap => wrapValue s incr
  | .bounded => boundedValue s incr

/-- C.APPLY (R90): "no-op if direction == None", in every mode and on every tuple (log 8). -/
def cApply (d : Direction) (s : State) : Except Refusal State :=
  match increment d s.rev with
  | none => .ok s
  | some incr =>
    match policyValue s incr with
    | .ok v => .ok (s.setValue v)
    | .error r => .error r

/-- A command whose counter half may be refused: the response `r` when it is not. -/
def answer (o : Except Refusal State) (r : Response) : Host.Outcome State Fault Refusal :=
  match o with
  | .ok t => .next (t.respond r)
  | .error e => .refused e

/-- C.CONFIGURE, merge (R100). -/
def merge (v n x : Option Int) (r : Option Bool) (m : Option (BitVec 2)) (s : State) : Merged where
  value := v.getD s.value
  minVal := n.getD s.minVal
  maxVal := x.getD s.maxVal
  rev := r.getD s.rev
  mode := m.getD s.mode.code

/-- C.CONFIGURE, validate (R101), in the order of R135; the mode the code stands for when valid. -/
def validate (c : Merged) : Except ErrCode RangeMode :=
  match RangeMode.ofCode c.mode with
  | none => .error .errMode
  | some m => if m ≠ .unbounded ∧ c.minVal > c.maxVal then .error .errRange else .ok m

/-- C.CONFIGURE, commit (R102): all registers together, and the decoder to START. -/
def commit (c : Merged) (m : RangeMode) (s : State) : State :=
  qRst { s with value := c.value, minVal := c.minVal, maxVal := c.maxVal, rev := c.rev, mode := m }

/-- Hardware reset (R150) of the instance; what the environment presents next is not the block's. -/
def hardwareReset (s : State) : State := (State.construct s.params).setInputs s.inputs

end Sys2Proof.Machine
end

