-- ==== Sys2Proof/Machine/Configure.lean ====
section
/-!
DEFINITION. Machine/Configure.lean: CFG (42_top_commands.md R121).
-/

namespace Sys2Proof.Machine

/-- CFG (R121): merge, validate, and commit or reject. -/
def execCfg (v n x : Option Int) (r : Option Bool) (m : Option (BitVec 2)) (s : State) :
    Host.Outcome State Fault Refusal :=
  let c := merge v n x r m s
  match validate c with
  | .error e => raiseErr e s
  | .ok mode => .next ((commit c mode s).respond okResponse)

end Sys2Proof.Machine
end

