-- ==== Sys2Proof/Machine/Control.lean ====
section
/-!
DEFINITION. Machine/Control.lean: the commands of format N (42_top_commands.md R115, R118, R119, R120).
-/

namespace Sys2Proof.Machine

/-- NOP (R115). -/
def execNop (s : State) : Host.Outcome State Fault Refusal := .next (s.respond okResponse)

/-- READ (R118, R98). -/
def execRead (s : State) : Host.Outcome State Fault Refusal := .next (s.respond (readResponse s.value))

/-- DRST (R119). -/
def execDrst (s : State) : Host.Outcome State Fault Refusal := .next ((qRst s).respond okResponse)

/-- CRST (R120, R99). -/
def execCrst (s : State) : Host.Outcome State Fault Refusal := .next ((s.setValue 0).respond okResponse)

end Sys2Proof.Machine
end

