-- ==== Sys2Proof/Machine/Signal.lean ====
section
/-!
DEFINITION. Machine/Signal.lean: the signal path, STEP and APPLY (42_top_commands.md R116, R117).
-/

namespace Sys2Proof.Machine

/-- STEP (R116): Q.STEP, then C.APPLY of its direction, as one command. -/
def execStep (a b : Bool) (s : State) : Host.Outcome State Fault Refusal :=
  let r := qStep a b s
  answer (cApply r.1 r.2) (dirResponse r.1)

/-- APPLY (R117). -/
def execApply (d : Direction) (s : State) : Host.Outcome State Fault Refusal := answer (cApply d s) okResponse

end Sys2Proof.Machine
end

