-- ==== Sys2Proof/Machine/Dispatch.lean ====
section
/-!
DEFINITION. Machine/Dispatch.lean: one arm per command (42_top_commands.md R123).
-/

namespace Sys2Proof.Machine

def exec (i : Instr) (s : State) : Host.Outcome State Fault Refusal :=
  match i with
  | .nop => Sys2Proof.Machine.execNop s
  | .step a b => Sys2Proof.Machine.execStep a b s
  | .apply d => Sys2Proof.Machine.execApply d s
  | .read => Sys2Proof.Machine.execRead s
  | .drst => Sys2Proof.Machine.execDrst s
  | .crst => Sys2Proof.Machine.execCrst s
  | .cfg v n x r m => Sys2Proof.Machine.execCfg v n x r m s

end Sys2Proof.Machine
end

