-- ==== Sys2Proof/Machine/Sequencer.lean ====
section
/-!
DEFINITION. Machine/Sequencer.lean: what one step does with what the environment presents (00_scope.md R4, R5,
42_top_commands.md R122, R123).
-/

namespace Sys2Proof.Machine

/-- R123: decode and perform; a reserved word is rejected (R122). A CFG operand that a W-bit port cannot carry
is refused (log 6). -/
def runCommand (c : Command) (s : State) : Host.Outcome State Fault Refusal :=
  match decode c with
  | .error _ => raiseErr .errCmd s
  | .ok i => if i.wellFormed s.params.width then exec i s else .refused .operandNotRepresentable

/-- One input. -/
def runInput (i : Input) (s : State) : Host.Outcome State Fault Refusal :=
  match i with
  | .command c => runCommand c s
  | .reset => .next (hardwareReset s)

/-- The next input is taken and performed. A step in which nothing is presented is a NOP: it "stands for a
step in which the environment calls no operation" (R115; log 4). -/
def runNext (s : State) : Host.Outcome State Fault Refusal :=
  match s.inputs with
  | [] => exec .nop s
  | i :: rest => runInput i (s.setInputs rest)

/-- A command word, its operand ports at zero, presented before everything else. -/
def presentWord (s : State) (w : Nat) : State :=
  s.setInputs (.command (.ofWord (BitVec.ofNat 8 w)) :: s.inputs)

end Sys2Proof.Machine
end

