-- ==== Sys2Proof/Machine/Step.lean ====
section
/-!
DEFINITION. Machine/Step.lean: one step of the block (00_scope.md R5, 70_reset_and_hazards.md R159).
-/

namespace Sys2Proof.Machine

/-- One command is accepted, executed and answered in one step (R159). -/
def step (s : State) : Host.Outcome State Fault Refusal := runNext s

/-- The block fetches nothing (R21); the command word is what the environment presents next (log 4). -/
def State.withFetchWord (s : State) (_nbits w : Nat) : State := presentWord s w

end Sys2Proof.Machine
end

