-- ==== Sys2Proof/Safety.lean ====
section
/-!
DEFINITION. Safety.lean: the words claims about the block are stated in: the invariants, the decoder alone as a
machine on sample codes, the walks of 40_decoder_fsm.md R87, its mirror image R88, and runs of samples.
-/

namespace Sys2Proof.Machine

/-- What holds of every state of a valid instance: R151 of its parameters, R97 of its three signed registers
(each is a W-bit word), and the configuration invariant R18. -/
abbrev ValidState (s : State) : Prop :=
  s.params.Valid ∧ s.params.width.represents s.value = true ∧ s.params.width.represents s.minVal = true ∧
    s.params.width.represents s.maxVal = true ∧ (s.mode ≠ .unbounded → s.minVal ≤ s.maxVal)

/-- The range invariant of R17. -/
abbrev InRange (s : State) : Prop := s.minVal ≤ s.value ∧ s.value ≤ s.maxVal

/-- The next state of the decoder for a code (R65). -/
def qNext (q : QState) (c : Code) : QState := entryNext (table q c)

/-- The direction the decoder reports for a code (R65). -/
def qDir (q : QState) (c : Code) : Direction := entryDir (table q c)

/-- The decoder's state after a list of codes. -/
def qRun (q : QState) : List Code → QState
  | [] => q
  | c :: cs => qRun (qNext q c) cs

/-- The directions the decoder reports along a list of codes. -/
def qDirs (q : QState) : List Code → List Direction
  | [] => []
  | c :: cs => qDir q c :: qDirs (qNext q c) cs

/-- The response a run of STEPs ends with, one for each direction in order (R53: `resp(d, OK, 0)`); the one
from before where there was no STEP. -/
def lastResponse (ds : List Direction) (before : Option Response) : Option Response :=
  match ds.getLast? with
  | none => before
  | some d => some ⟨d, .ok, 0⟩

/-- The counter alone, fed a list of directions. -/
def counterRun : List Direction → State → Except Refusal State
  | [], s => .ok s
  | d :: ds, s =>
    match cApply d s with
    | .ok t => counterRun ds t
    | .error r => .error r

/-- Clockwise reports less counter-clockwise reports. -/
def netReports (ds : List Direction) : Int := (ds.count .clockwise : Int) - (ds.count .counterClockwise : Int)

/-- The STEP command that carries a code. -/
def stepOf (c : Code) : Instr := .step (c.getLsbD 1) (c.getLsbD 0)

/-- Commands as the environment presents them. -/
def presented (is : List Instr) : List Input := is.map fun i => .command (encode i)

/-- A run of STEP commands, one a code. -/
def samples (cs : List Code) : List Input := presented (cs.map stepOf)

/-- `k` steps of the machine. -/
def runFor (k : Nat) (s : State) : Host.Outcome State Fault Refusal := Host.Core.run Sys2Proof.core k s

/-- R87: two codes that are the same or neighbours on a path whose middle is 00 and whose ends are 10 and 01. -/
abbrev SameOrNeighbour (c d : Code) : Prop := c = d ∨ c = 0b00#2 ∨ d = 0b00#2

/-- R87: a walk on the three-point path between `first` and `last` through 00, begun on `first` and now
standing on `last`. -/
abbrev PathWalk (first last : Code) (w : List Code) : Prop :=
  w.head? = some first ∧ w.getLast? = some last ∧ 0b11#2 ∉ w ∧ List.IsChain SameOrNeighbour w

/-- R88: CW_k exchanged with CCW_k. -/
def QState.mirror : QState → QState
  | .start => .start
  | .cw1 => .ccw1
  | .cw2 => .ccw2
  | .cw3 => .ccw3
  | .ccw1 => .cw1
  | .ccw2 => .cw2
  | .ccw3 => .cw3
  | .illegal => .illegal

/-- R88: the two flags exchanged. -/
def Direction.mirror : Direction → Direction
  | .none => .none
  | .clockwise => .counterClockwise
  | .counterClockwise => .clockwise

/-- The state seen with both channels exchanged and the reversal flag flipped. -/
def State.mirror (s : State) : State :=
  { s with
    state := s.state.mirror
    rev := !s.rev
    resp := s.resp.map fun r => { r with dir := Direction.mirror r.dir } }

end Sys2Proof.Machine
end

