-- ==== Sys2Proof/Certificates/Slice0/Obligations.lean ====
section
/-!
DEFINITION. Obligations.lean: the statements for the provers, from the numbered rules of spec/.
-/

open Sys2Proof Sys2Proof.Machine

/-! ### Encoding (30_encoding.md) -/

/-- Words written out from the patterns of R46 and vectors E1 decode to their commands; ports are arbitrary. -/
def Obligations.PrintedWordsDecode : Prop :=
  ∀ (v n x : Int) (r : Bool) (m : BitVec 2),
    decode ⟨0b00000000#8, v, n, x, r, m⟩ = .ok .nop ∧
    decode ⟨0b00100010#8, v, n, x, r, m⟩ = .ok (.step true false) ∧
    decode ⟨0b00100001#8, v, n, x, r, m⟩ = .ok (.step false true) ∧
    decode ⟨0b01000001#8, v, n, x, r, m⟩ = .ok (.apply .clockwise) ∧
    decode ⟨0b01000010#8, v, n, x, r, m⟩ = .ok (.apply .counterClockwise) ∧
    decode ⟨0b01100000#8, v, n, x, r, m⟩ = .ok .read ∧
    decode ⟨0b10000000#8, v, n, x, r, m⟩ = .ok .drst ∧
    decode ⟨0b10100000#8, v, n, x, r, m⟩ = .ok .crst ∧
    decode ⟨0b11000110#8, v, n, x, r, m⟩ = .ok (.cfg none none (some x) (some r) none) ∧
    decode ⟨0b11011001#8, v, n, x, r, m⟩ = .ok (.cfg (some v) (some n) none none (some m)) ∧
    decode ⟨0b01000011#8, v, n, x, r, m⟩ = .error .direction11 ∧
    decode ⟨0b11100000#8, v, n, x, r, m⟩ = .error .opcode111

/-- R46: a presentation decodes to the command of the first row its word belongs to, and to a command exactly
when there is such a row, whatever the operand ports carry. -/
def Obligations.DecodeFollowsCommandTable : Prop :=
  ∀ c : Command, (decode c).toOption.map Instr.mnemonic = (tableRow c.cw).map CommandRow.mnemonic

/-- R46: 43 of the 256 words are commands. -/
def Obligations.FortyThreeWordsAreCommands : Prop :=
  ((List.range 256).filter fun w => (decodeTableWord 8 w).isSome).length = 43

/-- R52: the reserved words are exactly the listed classes. -/
def Obligations.ReservedWordsAreTheListedClasses : Prop :=
  ∀ c : Command, (∃ e, decode c = .error e) ↔
    (c.cw.extractLsb' 5 3 = 0b111#3 ∨
     (c.cw.extractLsb' 5 3 ≠ 0b110#3 ∧ c.cw.extractLsb' 5 3 ≠ 0b111#3 ∧ c.cw.extractLsb' 2 3 ≠ 0#3) ∨
     ((c.cw.extractLsb' 5 3 = 0b000#3 ∨ c.cw.extractLsb' 5 3 = 0b011#3 ∨ c.cw.extractLsb' 5 3 = 0b100#3 ∨
        c.cw.extractLsb' 5 3 = 0b101#3) ∧ c.cw.extractLsb' 0 2 ≠ 0#2) ∨
     c.cw = 0x43#8)

/-- R47: every word `001000ab` is a STEP, its operand is bits 1 and 0 of the word, and its sample code is
`cw[1:0]`. -/
def Obligations.StepOperandIsTheLowBits : Prop :=
  ∀ (c : Command) (a b : Bool),
    (decode c = .ok (.step a b) ↔
      c.cw.extractLsb' 2 6 = 0b001000#6 ∧ a = c.cw.getLsbD 1 ∧ b = c.cw.getLsbD 0) ∧
    (decode c = .ok (.step a b) → sampleCode a b = c.cw.extractLsb' 0 2 ∧
      (sampleCode a b).toNat = 2 * a.toNat + b.toNat)

/-- R49: a decoded CFG is supplied an argument exactly when its write-enable is 1, and then with what its
port carries. -/
def Obligations.CfgArgumentsFollowWriteEnables : Prop :=
  ∀ (c : Command) (v n x : Option Int) (r : Option Bool) (m : Option (BitVec 2)),
    decode c = .ok (.cfg v n x r m) ↔
      (c.cw.extractLsb' 5 3 = 0b110#3 ∧
       v = (if c.cw.getLsbD 4 then some c.cfgValue else none) ∧
       n = (if c.cw.getLsbD 3 then some c.cfgMin else none) ∧
       x = (if c.cw.getLsbD 2 then some c.cfgMax else none) ∧
       r = (if c.cw.getLsbD 1 then some c.cfgReverse else none) ∧
       m = (if c.cw.getLsbD 0 then some c.cfgMode else none))

/-- Decode and encode agree on every command, every operand at every value. -/
def Obligations.EncodedCommandsDecodeBack : Prop := ∀ i : Instr, decode (encode i) = .ok i

/-- Where a word decodes, encoding the command gives the word back. -/
def Obligations.DecodedWordsReencode : Prop :=
  ∀ (c : Command) (i : Instr), decode c = .ok i → (encode i).cw = c.cw

/-! ### One step (00_scope.md R5, 42_top_commands.md R122, R123, 70_reset_and_hazards.md R150) -/

/-- A presented word that decodes to a command whose operands fit the ports: the step is that command's
meaning, at the state with the input taken. -/
def Obligations.StepRunsTheDecodedCommand : Prop :=
  ∀ (s : State) (c : Command) (rest : List Input) (i : Instr), s.inputs = .command c :: rest →
    decode c = .ok i → i.wellFormed s.params.width = true → step s = exec i { s with inputs := rest }

/-- R122: a reserved word changes no register and answers ERR_CMD. -/
def Obligations.ReservedWordIsRejected : Prop :=
  ∀ (s : State) (c : Command) (rest : List Input) (e : Reserved), s.inputs = .command c :: rest →
    decode c = .error e →
    step s = .next { s with inputs := rest, resp := some ⟨.none, .errCmd, 0⟩ }

/-- R150: the reset input gives the tuple of the construction parameters, from any state. That it is taken
between two commands and clears the response is the model's choice (logs 5, 12). -/
def Obligations.HardwareResetGivesTheTuple : Prop :=
  ∀ (s : State) (rest : List Input), s.inputs = .reset :: rest →
    step s = .next
      { state := .start, value := s.params.initValue, minVal := s.params.initMin, maxVal := s.params.initMax,
        rev := s.params.initRev, mode := s.params.initMode, params := s.params, resp := none, inputs := rest }

/-- A step in which nothing is presented is a NOP (the model's choice, log 4), and a CFG operand no W-bit port
can carry is refused (log 6). -/
def Obligations.UnpresentableInputs : Prop :=
  (∀ s : State, s.inputs = [] → step s = exec .nop s) ∧
  (∀ (s : State) (c : Command) (rest : List Input) (i : Instr), s.inputs = .command c :: rest →
    decode c = .ok i → i.wellFormed s.params.width = false → step s = .refused .operandNotRepresentable)

/-- A table word placed with `withFetchWord` is what the very next step runs (log 16). -/
def Obligations.FetchWordIsRunNext : Prop :=
  ∀ (s : State) (nbits w : Nat) (i : Instr), decodeTableWord nbits w = some i →
    step (s.withFetchWord nbits w) = exec i s

/-- A law of the model's list of inputs, which is the model's choice (log 4; log 12 for the reset input) and
stands for the order of commands R38 leaves to the environment: a step takes one input and leaves the later ones
as they are. -/
def Obligations.StepTakesOneInput : Prop :=
  ∀ s t : State, step s = .next t → t.inputs = s.inputs.tail

/-- R23: the response of an earlier command has no influence on a step (the field that keeps it is the
model's, log 5). -/
def Obligations.ResponsesAreTransient : Prop :=
  ∀ (s : State) (r : Option Response), step { s with resp := r } = step s

/-- R136: a command answered with a non-zero `err` changed no register, reports no direction and no data. -/
def Obligations.RejectionChangesNoRegister : Prop :=
  ∀ (s t : State) (c : Command) (rest : List Input) (r : Response), s.inputs = .command c :: rest →
    step s = .next t → t.resp = some r → r.err ≠ .ok →
    t = { s with inputs := rest, resp := some ⟨.none, r.err, 0⟩ }

/-- R137: everything after a rejected command goes as if the rejected one had been a NOP. -/
def Obligations.RejectionIsFollowedAsANop : Prop :=
  ∀ (s t : State) (c : Command) (rest : List Input) (r : Response) (k : Nat), s.inputs = .command c :: rest →
    step s = .next t → t.resp = some r → r.err ≠ .ok →
    runFor (k + 2) s = runFor (k + 2) { s with inputs := .command (encode .nop) :: rest }

/-! ### The transition table (40_decoder_fsm.md, 20_memory.md) -/

/-- R71 to R78: the next state and the direction of every row, code by code. -/
def Obligations.TransitionTableRows : Prop :=
  (qNext .start 0b00#2 = .start ∧ qNext .start 0b01#2 = .ccw1 ∧ qNext .start 0b10#2 = .cw1 ∧
    qNext .start 0b11#2 = .start) ∧
  (qNext .cw1 0b00#2 = .cw2 ∧ qNext .cw1 0b01#2 = .start ∧ qNext .cw1 0b10#2 = .cw1 ∧ qNext .cw1 0b11#2 = .start) ∧
  (qNext .cw2 0b00#2 = .cw2 ∧ qNext .cw2 0b01#2 = .cw3 ∧ qNext .cw2 0b10#2 = .cw1 ∧ qNext .cw2 0b11#2 = .start) ∧
  (qNext .cw3 0b00#2 = .cw2 ∧ qNext .cw3 0b01#2 = .cw3 ∧ qNext .cw3 0b10#2 = .start ∧ qNext .cw3 0b11#2 = .start) ∧
  (qNext .ccw1 0b00#2 = .ccw2 ∧ qNext .ccw1 0b01#2 = .ccw1 ∧ qNext .ccw1 0b10#2 = .start ∧
    qNext .ccw1 0b11#2 = .start) ∧
  (qNext .ccw2 0b00#2 = .ccw2 ∧ qNext .ccw2 0b01#2 = .ccw1 ∧ qNext .ccw2 0b10#2 = .ccw3 ∧
    qNext .ccw2 0b11#2 = .start) ∧
  (qNext .ccw3 0b00#2 = .ccw2 ∧ qNext .ccw3 0b01#2 = .start ∧ qNext .ccw3 0b10#2 = .ccw3 ∧
    qNext .ccw3 0b11#2 = .start) ∧
  (∀ c, qNext .illegal c = .start) ∧
  qDir .cw3 0b11#2 = .clockwise ∧ qDir .ccw3 0b11#2 = .counterClockwise ∧
  (∀ q c, ¬(q = .cw3 ∧ c = 0b11#2) → ¬(q = .ccw3 ∧ c = 0b11#2) → qDir q c = .none)

/-- R66, R86: exactly two entries carry a flag; none carries both; bit 3 is 0; and the direction reported is
bits 5:4 of the entry, the next state bits 2:0 (R51). -/
def Obligations.EntryFlagsAreTheTwoOfTheSource : Prop :=
  table .cw3 0b11#2 = 0x10#6 ∧ table .ccw3 0b11#2 = 0x20#6 ∧
  (∀ q c, (table q c).extractLsb' 4 2 ≠ 0#2 ↔ (q = .cw3 ∧ c = 0b11#2) ∨ (q = .ccw3 ∧ c = 0b11#2)) ∧
  (∀ q c, (table q c).extractLsb' 4 2 ≠ 0b11#2 ∧ (table q c).getLsbD 3 = false ∧
    (qDir q c).code = (table q c).extractLsb' 4 2 ∧ (qNext q c).code = (table q c).extractLsb' 0 3)

/-- R31: `MemRead(4*state + code, 6) = TABLE[state][code]`, and every address 0..31 is the address of one
entry. -/
def Obligations.RomAddressing : Prop :=
  (∀ q c, (romAddr q c).toNat = 4 * q.code.toNat + c.toNat ∧ table q c = memRead (romAddr q c)) ∧
  (∀ a : RomAddr, ∃ q c, a = romAddr q c)

/-- R80: after a STEP the state is one of those its code leads to. -/
def Obligations.StateTellsTheLastCode : Prop :=
  ∀ (a b : Bool) (s t : State), exec (.step a b) s = .next t →
    (sampleCode a b = 0b00#2 → t.state = .start ∨ t.state = .cw2 ∨ t.state = .ccw2) ∧
    (sampleCode a b = 0b01#2 → t.state = .start ∨ t.state = .cw3 ∨ t.state = .ccw1) ∧
    (sampleCode a b = 0b10#2 → t.state = .start ∨ t.state = .cw1 ∨ t.state = .ccw3) ∧
    (sampleCode a b = 0b11#2 → t.state = .start) ∧
    (t.state = .cw1 ∨ t.state = .ccw3 → sampleCode a b = 0b10#2) ∧
    (t.state = .cw2 ∨ t.state = .ccw2 → sampleCode a b = 0b00#2) ∧
    (t.state = .cw3 ∨ t.state = .ccw1 → sampleCode a b = 0b01#2)

/-- R156: a repeated code changes no register when the first presentation left a state other than START. -/
def Obligations.RepeatedSampleIsHarmless : Prop :=
  ∀ (a b : Bool) (s t : State), exec (.step a b) s = .next t → t.state ≠ .start →
    exec (.step a b) t = .next { t with resp := some ⟨.none, .ok, 0⟩ }

/-- R87, clockwise half, over runs of STEPs begun in START: when a direction is reported, and what the codes
were since the most recent step that started in START. -/
def Obligations.ClockwiseReportNeedsTheFullWalk : Prop :=
  (∀ q c, qDir q c = .clockwise ↔ q = .cw3 ∧ c = 0b11#2) ∧
  (∀ (s t : State) (before w : List Code), s.state = .start → s.inputs = samples (before ++ w) →
    runFor (before ++ w).length s = .next t → w ≠ [] → qRun .start before = .start →
    (∀ u, u <+: w → u ≠ [] → u ≠ w → qRun .start (before ++ u) ≠ .start) →
    (t.state = .cw3 ↔ PathWalk 0b10#2 0b01#2 w) ∧
    (t.state = .cw3 → [0b10#2, 0b00#2, 0b01#2].Sublist w))

/-- R87, counter-clockwise half, over runs of STEPs begun in START. -/
def Obligations.CounterClockwiseReportNeedsTheFullWalk : Prop :=
  (∀ q c, qDir q c = .counterClockwise ↔ q = .ccw3 ∧ c = 0b11#2) ∧
  (∀ (s t : State) (before w : List Code), s.state = .start → s.inputs = samples (before ++ w) →
    runFor (before ++ w).length s = .next t → w ≠ [] → qRun .start before = .start →
    (∀ u, u <+: w → u ≠ [] → u ≠ w → qRun .start (before ++ u) ≠ .start) →
    (t.state = .ccw3 ↔ PathWalk 0b01#2 0b10#2 w) ∧
    (t.state = .ccw3 → [0b01#2, 0b00#2, 0b10#2].Sublist w))

/-- R83: samples without code 11 report nothing and move no counter, in any number and from any state. -/
def Obligations.NoRestCodeNoReport : Prop :=
  ∀ (s : State) (cs : List Code), s.inputs = samples cs → 0b11#2 ∉ cs →
    ∃ r, runFor cs.length s = .next { s with state := qRun s.state cs, inputs := [], resp := r } ∧
      (cs ≠ [] → r = some ⟨.none, .ok, 0⟩) ∧ ∀ d ∈ qDirs s.state cs, d = .none

/-- R82: the two clean cycles and what they report, what the sequence printed in the source gives, and that no
other sequence of at most four codes reports anything from START. -/
def Obligations.CleanCyclesAreTheShortestReports : Prop :=
  (qRun .start [0b10#2] = .cw1 ∧ qRun .start [0b10#2, 0b00#2] = .cw2 ∧
    qRun .start [0b10#2, 0b00#2, 0b01#2] = .cw3 ∧ qRun .start [0b10#2, 0b00#2, 0b01#2, 0b11#2] = .start ∧
    qDirs .start [0b10#2, 0b00#2, 0b01#2, 0b11#2] = [.none, .none, .none, .clockwise]) ∧
  (qRun .start [0b01#2] = .ccw1 ∧ qRun .start [0b01#2, 0b00#2] = .ccw2 ∧
    qRun .start [0b01#2, 0b00#2, 0b10#2] = .ccw3 ∧ qRun .start [0b01#2, 0b00#2, 0b10#2, 0b11#2] = .start ∧
    qDirs .start [0b01#2, 0b00#2, 0b10#2, 0b11#2] = [.none, .none, .none, .counterClockwise]) ∧
  (qRun .start [0b00#2, 0b10#2, 0b11#2, 0b01#2, 0b00#2] = .ccw2 ∧
    qDirs .start [0b00#2, 0b10#2, 0b11#2, 0b01#2, 0b00#2] = [.none, .none, .none, .none, .none]) ∧
  (∀ cs : List Code, cs.length ≤ 4 → (∃ d ∈ qDirs .start cs, d ≠ .none) →
    cs = [0b10#2, 0b00#2, 0b01#2, 0b11#2] ∨ cs = [0b01#2, 0b00#2, 0b10#2, 0b11#2])

/-- One clean detent (R57, R82) from START does to the counter what one APPLY of its direction does, and the
last response carries the direction. -/
def Obligations.CleanDetentAppliesItsDirection : Prop :=
  ∀ (s t : State) (d : Direction) (rest : List Input), s.state = .start →
    (d = .clockwise ∧ s.inputs = presented detentCw ++ rest ∨
      d = .counterClockwise ∧ s.inputs = presented detentCcw ++ rest) →
    exec (.apply d) { s with inputs := rest } = .next t →
    runFor 4 s = .next { t with resp := some ⟨d, .ok, 0⟩ }

/-- R88: exchanging the channels and CW with CCW maps the table onto itself. -/
def Obligations.TableIsMirrorSymmetric : Prop :=
  ∀ (q : QState) (a b : Bool),
    qNext q.mirror (sampleCode b a) = (qNext q (sampleCode a b)).mirror ∧
    qDir q.mirror (sampleCode b a) = Direction.mirror (qDir q (sampleCode a b))

/-- A STEP with the channels exchanged, on the mirrored decoder with the reversal flag flipped, gives the
mirrored result: wiring the encoder the other way round is what `rev` compensates. -/
def Obligations.MirroredStepIsCompensatedByReversal : Prop :=
  ∀ (a b : Bool) (s t : State), exec (.step a b) s = .next t →
    exec (.step b a) s.mirror = .next t.mirror

/-- R81 as a step lemma: reset gives another state, and no step, whatever is presented, leads from another
state to ILLEGAL; so no run from reset of any instance reaches it. -/
def Obligations.IllegalIsNeverReached : Prop :=
  (∀ p : Params, (State.construct p).state ≠ .illegal) ∧
  (∀ s t : State, s.state ≠ .illegal → step s = .next t → t.state ≠ .illegal) ∧
  ∀ (p : Params) (ins : List Input) (k : Nat) (t : State),
    runFor k { State.construct p with inputs := ins } = .next t → t.state ≠ .illegal

/-- R157: after a DRST or an accepted CFG, up to three further samples report nothing, in the decoder and in
the machine's response, and leave the counter alone: a partial detent is gone. -/
def Obligations.ReconfigurationDiscardsThePartialDetent : Prop :=
  ∀ (i : Instr) (s t : State) (cs : List Code), (i = .drst ∨ ∃ v n x r m, i = .cfg v n x r m) →
    exec i s = .next t → t.resp = some ⟨.none, .ok, 0⟩ → s.inputs = samples cs → cs.length ≤ 3 →
    runFor cs.length t =
        .next { t with state := qRun .start cs, inputs := [], resp := some ⟨.none, .ok, 0⟩ } ∧
      ∀ d ∈ qDirs .start cs, d = .none

/-! ### The counter (41_ranged_counter.md) and the commands (42_top_commands.md) -/

/-- R115. -/
def Obligations.NopWritesNothing : Prop :=
  ∀ s : State, exec .nop s = .next { s with resp := some ⟨.none, .ok, 0⟩ }

/-- R118, R98: READ answers `value`, whatever it is, and writes nothing. -/
def Obligations.ReadAnswersTheValue : Prop :=
  ∀ s : State, exec .read s = .next { s with resp := some ⟨.none, .ok, s.value⟩ }

/-- R119, R79: DRST puts `state` to START and touches no other register. -/
def Obligations.DrstPutsTheDecoderToStart : Prop :=
  ∀ s : State, exec .drst s = .next { s with state := .start, resp := some ⟨.none, .ok, 0⟩ }

/-- R120, R99: CRST puts `value` to 0 and touches no other register. -/
def Obligations.CrstPutsTheValueToZero : Prop :=
  ∀ s : State, exec .crst s = .next { s with value := 0, resp := some ⟨.none, .ok, 0⟩ }

/-- R90: APPLY with None writes nothing, in every mode. -/
def Obligations.ApplyNoneWritesNothing : Prop :=
  ∀ s : State, exec (.apply .none) s = .next { s with resp := some ⟨.none, .ok, 0⟩ }

/-- R92 with the increment of R50: APPLY in Unbounded mode adds the increment, whatever the bounds, and is
refused where a finite W cannot hold the sum. -/
def Obligations.ApplyUnboundedAddsTheIncrement : Prop :=
  ∀ (d : Direction) (s : State) (incr : Int), d ≠ .none →
    incr = (if d = .clockwise then 1 else -1) * (if s.rev then -1 else 1) → s.mode = .unbounded →
    (s.params.width.represents (s.value + incr) = true →
      exec (.apply d) s = .next { s with value := s.value + incr, resp := some ⟨.none, .ok, 0⟩ }) ∧
    (s.params.width.represents (s.value + incr) = false → exec (.apply d) s = .refused .unboundedOverflow)

/-- R93: APPLY in Wrap mode stores the one member of `[min_val, max_val]` in the class of `value + incr`
modulo the width of the range. -/
def Obligations.ApplyWrapStoresTheInRangeMember : Prop :=
  ∀ (d : Direction) (s : State) (incr : Int), d ≠ .none →
    incr = (if d = .clockwise then 1 else -1) * (if s.rev then -1 else 1) → s.mode = .wrap →
    s.minVal ≤ s.maxVal →
    ∃ v, exec (.apply d) s = .next { s with value := v, resp := some ⟨.none, .ok, 0⟩ } ∧
      v = s.minVal + Int.fmod (s.value + incr - s.minVal) (s.maxVal - s.minVal + 1) ∧
      s.minVal ≤ v ∧ v ≤ s.maxVal ∧
      ∀ u, s.minVal ≤ u → u ≤ s.maxVal → ((s.maxVal - s.minVal + 1) ∣ (s.value + incr - u) ↔ u = v)

/-- R94: APPLY in Bounded mode stores the clamped sum; from outside the range, the nearer bound. -/
def Obligations.ApplyBoundedStoresTheClampedSum : Prop :=
  ∀ (d : Direction) (s : State) (incr : Int), d ≠ .none →
    incr = (if d = .clockwise then 1 else -1) * (if s.rev then -1 else 1) → s.mode = .bounded →
    s.minVal ≤ s.maxVal →
    ∃ v, exec (.apply d) s = .next { s with value := v, resp := some ⟨.none, .ok, 0⟩ } ∧
      v = min s.maxVal (max s.minVal (s.value + incr)) ∧ s.minVal ≤ v ∧ v ≤ s.maxVal ∧
      (s.maxVal < s.value → v = s.maxVal) ∧ (s.value < s.minVal → v = s.minVal) ∧
      (s.value = s.maxVal → incr = 1 → v = s.maxVal) ∧ (s.value = s.minVal → incr = -1 → v = s.minVal)

/-- R97: in a valid state an APPLY is refused exactly at the end of the range of a finite W, in Unbounded
mode. -/
def Obligations.ApplyIsRefusedExactlyAtOverflow : Prop :=
  ∀ (d : Direction) (s : State) (r : Refusal), ValidState s →
    (exec (.apply d) s = .refused r ↔
      r = .unboundedOverflow ∧ s.mode = .unbounded ∧ d ≠ .none ∧
        ∃ n, s.params.width = .bits n ∧
          (s.value = 2 ^ (n - 1) - 1 ∧ (d = .clockwise ↔ s.rev = false) ∨
           s.value = -(2 ^ (n - 1)) ∧ (d = .clockwise ↔ s.rev = true)))

/-- R104: an apply that would read inverted bounds is refused and given no value. -/
def Obligations.InvertedBoundsAreRefused : Prop :=
  ∀ (d : Direction) (s : State), d ≠ .none → s.mode ≠ .unbounded → s.maxVal < s.minVal →
    exec (.apply d) s = .refused .invertedBounds

/-- R17: the range invariant holds right after an apply of a direction, by APPLY or by an emitting STEP. -/
def Obligations.RangeHoldsAfterAnApply : Prop :=
  ∀ (s t : State), s.mode ≠ .unbounded →
    (∀ d, d ≠ .none → exec (.apply d) s = .next t → InRange t) ∧
    (∀ a b r, exec (.step a b) s = .next t → t.resp = some r → r.dir ≠ .none → InRange t)

/-- R95: floored modulo is the one residue in `0..m-1`. -/
def Obligations.FlooredModuloIsTheResidue : Prop :=
  ∀ x m r : Int, 1 ≤ m → (r = fmod x m ↔ 0 ≤ r ∧ r ≤ m - 1 ∧ m ∣ x - r)

/-- R96: clamp by cases, and as `min(hi, max(lo, x))`. -/
def Obligations.ClampIsMinOfMax : Prop :=
  ∀ x lo hi : Int, lo ≤ hi →
    clamp x lo hi = min hi (max lo x) ∧ (x < lo → clamp x lo hi = lo) ∧ (hi < x → clamp x lo hi = hi) ∧
      (lo ≤ x → x ≤ hi → clamp x lo hi = x)

/-- R116: STEP is the decoder's step followed by the apply of its direction, as one command; refused exactly
when that apply is. -/
def Obligations.StepIsDecodeThenApply : Prop :=
  ∀ (a b : Bool) (s : State), exec (.step a b) s =
    match exec (.apply (qDir s.state (sampleCode a b))) s with
    | .next t =>
      .next { t with
        state := qNext s.state (sampleCode a b)
        resp := some ⟨qDir s.state (sampleCode a b), .ok, 0⟩ }
    | .fault f => .fault f
    | .refused r => .refused r

/-- R116: a STEP off the two flagged pairs always completes, and changes `state` at most. -/
def Obligations.StepWithoutReportMovesOnlyTheState : Prop :=
  ∀ (a b : Bool) (s : State),
    ¬(a = true ∧ b = true ∧ (s.state = .cw3 ∨ s.state = .ccw3)) →
    exec (.step a b) s =
      .next { s with state := qNext s.state (sampleCode a b), resp := some ⟨.none, .ok, 0⟩ }

/-- R116, R74, R77: a STEP 11 from CW_3 or CCW_3 reports and moves the counter by the policy; it completes in
every mode, in Unbounded mode where W can hold the sum. -/
def Obligations.ReportingStepMovesTheCounter : Prop :=
  ∀ (s : State) (d : Direction) (incr : Int),
    (s.state = .cw3 ∧ d = .clockwise ∨ s.state = .ccw3 ∧ d = .counterClockwise) →
    incr = (if d = .clockwise then 1 else -1) * (if s.rev then -1 else 1) →
    (s.mode = .unbounded → s.params.width.represents (s.value + incr) = true) →
    (s.mode ≠ .unbounded → s.minVal ≤ s.maxVal) →
    exec (.step true true) s =
      .next { s with
        state := .start
        value := match s.mode with
          | .unbounded => s.value + incr
          | .wrap => s.minVal + Int.fmod (s.value + incr - s.minVal) (s.maxVal - s.minVal + 1)
          | .bounded => min s.maxVal (max s.minVal (s.value + incr))
        resp := some ⟨d, .ok, 0⟩ }

/-- R102 with the merge of R100: a CFG whose merged configuration is valid writes what was supplied, all
together, keeps the rest, stores `value` as given and puts the decoder to START. Operand code 0 stores
Unbounded, 1 Wrap, 2 Bounded (R16). -/
def Obligations.AcceptedCfgCommitsTheMergedConfiguration : Prop :=
  ∀ (v n x : Option Int) (r : Option Bool) (m : Option (BitVec 2)) (s : State) (mode : RangeMode),
    (m = none ∧ mode = s.mode ∨ m = some 0#2 ∧ mode = .unbounded ∨ m = some 1#2 ∧ mode = .wrap ∨
      m = some 2#2 ∧ mode = .bounded) →
    (mode ≠ .unbounded → n.getD s.minVal ≤ x.getD s.maxVal) →
    exec (.cfg v n x r m) s =
      .next { s with
        state := .start
        value := v.getD s.value
        minVal := n.getD s.minVal
        maxVal := x.getD s.maxVal
        rev := r.getD s.rev
        mode := mode
        resp := some ⟨.none, .ok, 0⟩ }

/-- R101, R135: what is rejected, with which code, in which order, that nothing is written then, and that
nothing else is rejected, whatever `value` is supplied. -/
def Obligations.InvalidCfgIsRejected : Prop :=
  ∀ (v n x : Option Int) (r : Option Bool) (s : State),
    exec (.cfg v n x r (some 3#2)) s = .next { s with resp := some ⟨.none, .errMode, 0⟩ } ∧
    ∀ (m : Option (BitVec 2)), m ≠ some 3#2 →
      ((m = some 1#2 ∨ m = some 2#2 ∨ m = none ∧ s.mode ≠ .unbounded) → x.getD s.maxVal < n.getD s.minVal →
        exec (.cfg v n x r m) s = .next { s with resp := some ⟨.none, .errRange, 0⟩ }) ∧
      ((m = some 0#2 ∨ m = none ∧ s.mode = .unbounded ∨ n.getD s.minVal ≤ x.getD s.maxVal) →
        ∃ t, exec (.cfg v n x r m) s = .next t ∧ t.resp = some ⟨.none, .ok, 0⟩)

/-- R121: the word 0xC0, no field supplied, is accepted in every valid state and only resets the decoder. -/
def Obligations.CfgNoneOnlyResetsTheDecoder : Prop :=
  ∀ (s : State) (c : Command) (rest : List Input), ValidState s → c.cw = 0xC0#8 → s.inputs = .command c :: rest →
    step s = .next { s with state := .start, inputs := rest, resp := some ⟨.none, .ok, 0⟩ }

/-- R10's write column and the summary table of 42_top_commands.md: which commands may write which register. -/
def Obligations.EachRegisterHasItsWriters : Prop :=
  ∀ (i : Instr) (s t : State), exec i s = .next t →
    t.params = s.params ∧ t.inputs = s.inputs ∧
    ((∀ v n x r m, i ≠ .cfg v n x r m) →
      t.minVal = s.minVal ∧ t.maxVal = s.maxVal ∧ t.rev = s.rev ∧ t.mode = s.mode) ∧
    ((∀ v n x r m, i ≠ .cfg v n x r m) → i ≠ .drst → (∀ a b, i ≠ .step a b) → t.state = s.state) ∧
    ((∀ v n x r m, i ≠ .cfg (some v) n x r m) → i ≠ .crst → (∀ d, d ≠ .none → i ≠ .apply d) →
      (∀ a b, i = .step a b → qDir s.state (sampleCode a b) = .none) → t.value = s.value)

/-! ### Invariants and runs -/

/-- R18 and R151, with the widths of R97: every step keeps them, whatever is presented. -/
def Obligations.EveryStepKeepsTheInvariant : Prop :=
  ∀ s t : State, ValidState s → step s = .next t → ValidState t

/-- The invariant holds after reset of every valid instance, and of `State.reset` (whose parameters are the
model's, logs 2 and 3). -/
def Obligations.InvariantHoldsAtReset : Prop :=
  (∀ p : Params, p.Valid → ValidState (State.construct p)) ∧ ValidState State.reset

/-- R5: in a valid state of unlimited width every step has a next state; of finite width a step stops only
for an Unbounded sum (R97) or an operand no port can carry. That the latter stops, and that a step in which
nothing is presented answers as a NOP, are the model's choices (logs 6, 4). -/
def Obligations.StepsAnswer : Prop :=
  ∀ s : State, ValidState s →
    (s.params.width = .inf → ∃ t, step s = .next t) ∧
    (∀ r, step s = .refused r →
      r = .unboundedOverflow ∧ s.mode = .unbounded ∨ r = .operandNotRepresentable)

/-- R116 over runs of samples: the machine on a sequence of samples is the decoder's run beside the counter's
run on the directions the decoder reports, and answers the last of them. -/
def Obligations.SampleRunsAreDecoderThenCounter : Prop :=
  ∀ (cs : List Code) (s : State), s.inputs = samples cs →
    match counterRun (qDirs s.state cs) s with
    | .ok u => runFor cs.length s =
        .next { u with
          state := qRun s.state cs
          inputs := []
          resp := lastResponse (qDirs s.state cs) s.resp }
    | .error e => runFor cs.length s = .refused e

/-- R92 and R50 over whole runs: in Unbounded mode the value moves by the net number of reports, with the
sign of the reversal setting. -/
def Obligations.UnboundedValueCountsTheReports : Prop :=
  ∀ (cs : List Code) (s : State), s.inputs = samples cs → s.mode = .unbounded → s.params.width = .inf →
    ∃ r, runFor cs.length s = .next { s with
      state := qRun s.state cs
      value := s.value + (if s.rev then -1 else 1) * netReports (qDirs s.state cs)
      inputs := []
      resp := r }

/-- R103: in Unbounded mode the same samples with the other reversal setting change the value by the opposite
amount. -/
def Obligations.ReversalNegatesTheUnboundedChange : Prop :=
  ∀ (cs : List Code) (s : State), s.inputs = samples cs → s.mode = .unbounded → s.params.width = .inf →
    ∃ t u, runFor cs.length s = .next t ∧ runFor cs.length { s with rev := !s.rev } = .next u ∧
      u.value - s.value = -(t.value - s.value) ∧ u.state = t.state

/-- R93 over whole runs: in Wrap mode, once something was reported, the value is the in-range member of the
class of the start value plus the net number of reports. -/
def Obligations.WrapValueCountsTheReportsModulo : Prop :=
  ∀ (cs : List Code) (s : State), s.inputs = samples cs → s.mode = .wrap → s.minVal ≤ s.maxVal →
    (∃ d ∈ qDirs s.state cs, d ≠ .none) →
    ∃ r, runFor cs.length s = .next { s with
      state := qRun s.state cs
      value := s.minVal + Int.fmod
        (s.value + (if s.rev then -1 else 1) * netReports (qDirs s.state cs) - s.minVal)
        (s.maxVal - s.minVal + 1)
      inputs := []
      resp := r }

/-- Without CFG, and where both runs complete, the counter has no influence on the decoder: two such runs on the
same commands, from states that agree on `state`, end with the same `state` and the same direction. CFG is left
out, since whether it resets the decoder depends on the bounds and the mode held (R101). -/
def Obligations.DecoderIgnoresTheCounterWithoutCfg : Prop :=
  ∀ (is : List Instr) (s u s' u' : State), (∀ i ∈ is, ∀ v n x r m, i ≠ .cfg v n x r m) → is ≠ [] →
    s.inputs = presented is → u.inputs = presented is → s.state = u.state →
    runFor is.length s = .next s' → runFor is.length u = .next u' →
    s'.state = u'.state ∧ s'.resp.map Response.dir = u'.resp.map Response.dir

/-! ### Codes of the registers and ports -/

/-- R12, R141: the number `q_state` shows for each state, every pattern that of one state. R16, R48, R53: the
numbers of the modes, the directions and the error codes. -/
def Obligations.PortsShowTheNumberedCodes : Prop :=
  (∀ s : State,
    (s.state = .start → s.qState = 0#3) ∧ (s.state = .cw1 → s.qState = 1#3) ∧ (s.state = .cw2 → s.qState = 2#3) ∧
    (s.state = .cw3 → s.qState = 3#3) ∧ (s.state = .ccw1 → s.qState = 4#3) ∧ (s.state = .ccw2 → s.qState = 5#3) ∧
    (s.state = .ccw3 → s.qState = 6#3) ∧ (s.state = .illegal → s.qState = 7#3)) ∧
  (∀ c : BitVec 3, ∃ s : State, s.qState = c) ∧
  (RangeMode.unbounded.code = 0#2 ∧ RangeMode.wrap.code = 1#2 ∧ RangeMode.bounded.code = 2#2) ∧
  (Direction.none.code = 0b00#2 ∧ Direction.clockwise.code = 0b01#2 ∧ Direction.counterClockwise.code = 0b10#2) ∧
  (ErrCode.ok.code = 0#2 ∧ ErrCode.errCmd.code = 1#2 ∧ ErrCode.errMode.code = 2#2 ∧ ErrCode.errRange.code = 3#2)
end

