-- ==== Sys2Proof/Laws/Decode.lean ====
section
/-!
SUPPORT. Laws/Decode.lean: the small lemmas of the codes and of the decoder's parts.
-/

namespace Sys2Proof

@[simp] theorem Direction.ofCode_code (d : Direction) : Direction.ofCode d.code = some d := by
  cases d <;> rfl

/-- R48: only 11 is no direction. -/
theorem Direction.ofCode_eq_none_iff (c : BitVec 2) : Direction.ofCode c = Option.none ↔ c = 0b11#2 := by
  revert c; decide

@[simp] theorem RangeMode.ofCode_code (m : RangeMode) : RangeMode.ofCode m.code = some m := by
  cases m <;> rfl

/-- R16: only 3 is no mode. -/
theorem RangeMode.ofCode_eq_none_iff (c : BitVec 2) : RangeMode.ofCode c = none ↔ c = 3#2 := by
  revert c; decide

theorem RangeMode.ofCode_eq_some_iff (c : BitVec 2) (m : RangeMode) : RangeMode.ofCode c = some m ↔ c = m.code := by
  revert c; cases m <;> decide

theorem RangeMode.code_ne_three (m : RangeMode) : m.code ≠ 3#2 := by cases m <;> decide

/-- R46: the rows of the command table do not overlap. -/
theorem commandTable_rows_disjoint :
    commandTable.Pairwise fun r q => ∀ cw : CmdWord, (r.holds cw && q.holds cw) = false := by decide

@[simp] theorem supplied_true {α : Type} (x : α) : supplied true x = some x := rfl
@[simp] theorem supplied_false {α : Type} (x : α) : supplied false x = none := rfl

/-- Everything `decodeLower` can do. -/
theorem decodeLower_eq_ok_iff (c : Command) (o : Except Reserved Instr) (i : Instr) :
    decodeLower c o = .ok i ↔ c.upper = 0#3 ∧ o = .ok i := by
  unfold decodeLower; split <;> simp_all

/-- Everything `decodeNoOperand` can do. -/
theorem decodeNoOperand_eq_ok_iff (c : Command) (i j : Instr) :
    decodeNoOperand c i = .ok j ↔ c.upper = 0#3 ∧ c.lower = 0#2 ∧ i = j := by
  rw [decodeNoOperand, decodeLower_eq_ok_iff]
  split <;> simp_all

/-- Zero fits every width, so a table word's zero ports are presentable. -/
theorem Width.represents_zero (w : Width) : w.represents 0 = true := by
  cases w with
  | inf => rfl
  | bits n =>
    have h : (0 : Int) < 2 ^ (n - 1) := by positivity
    simp only [Width.represents, decide_eq_true_eq]
    omega

end Sys2Proof
end

