-- ==== Sys2Proof/Laws/State.lean ====
section
/-!
SUPPORT. Laws/State.lean: one lemma per field per register write, so that no proof unfolds a record update.
-/

namespace Sys2Proof.Machine

@[simp] theorem State.setState_state (s : State) (q : QState) : (s.setState q).state = q := rfl
@[simp] theorem State.setState_value (s : State) (q : QState) : (s.setState q).value = s.value := rfl
@[simp] theorem State.setState_minVal (s : State) (q : QState) : (s.setState q).minVal = s.minVal := rfl
@[simp] theorem State.setState_maxVal (s : State) (q : QState) : (s.setState q).maxVal = s.maxVal := rfl
@[simp] theorem State.setState_rev (s : State) (q : QState) : (s.setState q).rev = s.rev := rfl
@[simp] theorem State.setState_mode (s : State) (q : QState) : (s.setState q).mode = s.mode := rfl
@[simp] theorem State.setState_params (s : State) (q : QState) : (s.setState q).params = s.params := rfl
@[simp] theorem State.setState_resp (s : State) (q : QState) : (s.setState q).resp = s.resp := rfl
@[simp] theorem State.setState_inputs (s : State) (q : QState) : (s.setState q).inputs = s.inputs := rfl

@[simp] theorem State.setValue_state (s : State) (v : Int) : (s.setValue v).state = s.state := rfl
@[simp] theorem State.setValue_value (s : State) (v : Int) : (s.setValue v).value = v := rfl
@[simp] theorem State.setValue_minVal (s : State) (v : Int) : (s.setValue v).minVal = s.minVal := rfl
@[simp] theorem State.setValue_maxVal (s : State) (v : Int) : (s.setValue v).maxVal = s.maxVal := rfl
@[simp] theorem State.setValue_rev (s : State) (v : Int) : (s.setValue v).rev = s.rev := rfl
@[simp] theorem State.setValue_mode (s : State) (v : Int) : (s.setValue v).mode = s.mode := rfl
@[simp] theorem State.setValue_params (s : State) (v : Int) : (s.setValue v).params = s.params := rfl
@[simp] theorem State.setValue_resp (s : State) (v : Int) : (s.setValue v).resp = s.resp := rfl
@[simp] theorem State.setValue_inputs (s : State) (v : Int) : (s.setValue v).inputs = s.inputs := rfl

@[simp] theorem State.respond_state (s : State) (r : Response) : (s.respond r).state = s.state := rfl
@[simp] theorem State.respond_value (s : State) (r : Response) : (s.respond r).value = s.value := rfl
@[simp] theorem State.respond_minVal (s : State) (r : Response) : (s.respond r).minVal = s.minVal := rfl
@[simp] theorem State.respond_maxVal (s : State) (r : Response) : (s.respond r).maxVal = s.maxVal := rfl
@[simp] theorem State.respond_rev (s : State) (r : Response) : (s.respond r).rev = s.rev := rfl
@[simp] theorem State.respond_mode (s : State) (r : Response) : (s.respond r).mode = s.mode := rfl
@[simp] theorem State.respond_params (s : State) (r : Response) : (s.respond r).params = s.params := rfl
@[simp] theorem State.respond_resp (s : State) (r : Response) : (s.respond r).resp = some r := rfl
@[simp] theorem State.respond_inputs (s : State) (r : Response) : (s.respond r).inputs = s.inputs := rfl

@[simp] theorem State.setInputs_state (s : State) (l : List Input) : (s.setInputs l).state = s.state := rfl
@[simp] theorem State.setInputs_value (s : State) (l : List Input) : (s.setInputs l).value = s.value := rfl
@[simp] theorem State.setInputs_minVal (s : State) (l : List Input) : (s.setInputs l).minVal = s.minVal := rfl
@[simp] theorem State.setInputs_maxVal (s : State) (l : List Input) : (s.setInputs l).maxVal = s.maxVal := rfl
@[simp] theorem State.setInputs_rev (s : State) (l : List Input) : (s.setInputs l).rev = s.rev := rfl
@[simp] theorem State.setInputs_mode (s : State) (l : List Input) : (s.setInputs l).mode = s.mode := rfl
@[simp] theorem State.setInputs_params (s : State) (l : List Input) : (s.setInputs l).params = s.params := rfl
@[simp] theorem State.setInputs_resp (s : State) (l : List Input) : (s.setInputs l).resp = s.resp := rfl
@[simp] theorem State.setInputs_inputs (s : State) (l : List Input) : (s.setInputs l).inputs = l := rfl

@[simp] theorem qRst_state (s : State) : (qRst s).state = .start := rfl
@[simp] theorem qRst_value (s : State) : (qRst s).value = s.value := rfl
@[simp] theorem qRst_minVal (s : State) : (qRst s).minVal = s.minVal := rfl
@[simp] theorem qRst_maxVal (s : State) : (qRst s).maxVal = s.maxVal := rfl
@[simp] theorem qRst_rev (s : State) : (qRst s).rev = s.rev := rfl
@[simp] theorem qRst_mode (s : State) : (qRst s).mode = s.mode := rfl
@[simp] theorem qRst_params (s : State) : (qRst s).params = s.params := rfl
@[simp] theorem qRst_resp (s : State) : (qRst s).resp = s.resp := rfl
@[simp] theorem qRst_inputs (s : State) : (qRst s).inputs = s.inputs := rfl

@[simp] theorem commit_state (c : Merged) (m : RangeMode) (s : State) : (commit c m s).state = .start := rfl
@[simp] theorem commit_value (c : Merged) (m : RangeMode) (s : State) : (commit c m s).value = c.value := rfl
@[simp] theorem commit_minVal (c : Merged) (m : RangeMode) (s : State) : (commit c m s).minVal = c.minVal := rfl
@[simp] theorem commit_maxVal (c : Merged) (m : RangeMode) (s : State) : (commit c m s).maxVal = c.maxVal := rfl
@[simp] theorem commit_rev (c : Merged) (m : RangeMode) (s : State) : (commit c m s).rev = c.rev := rfl
@[simp] theorem commit_mode (c : Merged) (m : RangeMode) (s : State) : (commit c m s).mode = m := rfl
@[simp] theorem commit_params (c : Merged) (m : RangeMode) (s : State) : (commit c m s).params = s.params := rfl
@[simp] theorem commit_resp (c : Merged) (m : RangeMode) (s : State) : (commit c m s).resp = s.resp := rfl
@[simp] theorem commit_inputs (c : Merged) (m : RangeMode) (s : State) : (commit c m s).inputs = s.inputs := rfl

@[simp] theorem hardwareReset_state (s : State) : (hardwareReset s).state = .start := rfl
@[simp] theorem hardwareReset_value (s : State) : (hardwareReset s).value = s.params.initValue := rfl
@[simp] theorem hardwareReset_minVal (s : State) : (hardwareReset s).minVal = s.params.initMin := rfl
@[simp] theorem hardwareReset_maxVal (s : State) : (hardwareReset s).maxVal = s.params.initMax := rfl
@[simp] theorem hardwareReset_rev (s : State) : (hardwareReset s).rev = s.params.initRev := rfl
@[simp] theorem hardwareReset_mode (s : State) : (hardwareReset s).mode = s.params.initMode := rfl
@[simp] theorem hardwareReset_params (s : State) : (hardwareReset s).params = s.params := rfl
@[simp] theorem hardwareReset_resp (s : State) : (hardwareReset s).resp = none := rfl
@[simp] theorem hardwareReset_inputs (s : State) : (hardwareReset s).inputs = s.inputs := rfl

end Sys2Proof.Machine
end

