-- ==== Sys2Proof/Laws/Counter.lean ====
section
/-!
SUPPORT. Laws/Counter.lean: what the shared operations of the counter can do, said once.
-/

namespace Sys2Proof.Machine

/-- R50: None forms no increment. -/
@[simp] theorem increment_none (rev : Bool) : increment .none rev = none := rfl

/-- R50: the increment of a direction is +1 or -1. -/
theorem increment_eq_some {d : Direction} {rev : Bool} {k : Int} (h : increment d rev = some k) :
    d ≠ .none ∧ (k = 1 ∨ k = -1) := by
  cases d <;> cases rev <;> simp_all [increment, sign]

/-- R7: `fmod` is the floored modulo of the integers. -/
theorem fmod_eq (x m : Int) : fmod x m = Int.fmod x m := by
  rw [fmod, fdiv, Int.fmod_def]

/-- R95: for a positive divisor the residue lies in `0..m-1`. -/
theorem fmod_bounds (x : Int) {m : Int} (hm : 0 < m) : 0 ≤ fmod x m ∧ fmod x m < m := by
  rw [fmod_eq]
  exact ⟨Int.fmod_nonneg_of_pos x hm, Int.fmod_lt_of_pos x hm⟩

/-- R93: the stored value lies in the range. -/
theorem wrapValue_mem {s : State} {k v : Int} (h : wrapValue s k = .ok v) : s.minVal ≤ v ∧ v ≤ s.maxVal := by
  unfold wrapValue at h
  split at h
  next hle =>
    have hb := fmod_bounds (s.value + k - s.minVal) (m := s.maxVal - s.minVal + 1) (by omega)
    cases h
    omega
  next => cases h

/-- R94: the stored value lies in the range. -/
theorem boundedValue_mem {s : State} {k v : Int} (h : boundedValue s k = .ok v) :
    s.minVal ≤ v ∧ v ≤ s.maxVal := by
  unfold boundedValue clamp at h
  split at h
  next hle => cases h; split <;> [omega; split <;> omega]
  next => cases h

/-- Everything C.APPLY can do when it is not refused (R90): nothing on None, otherwise one write of `value`. -/
theorem cApply_cases {d : Direction} {s t : State} (h : cApply d s = .ok t) :
    (d = .none ∧ t = s) ∨
      ∃ k v, increment d s.rev = some k ∧ policyValue s k = .ok v ∧ t = s.setValue v := by
  unfold cApply at h
  split at h
  next hi =>
    cases h
    exact .inl ⟨by cases d <;> simp_all [increment], rfl⟩
  next k hk =>
    split at h
    next v hv => cases h; exact .inr ⟨k, v, hk, hv, rfl⟩
    next => cases h

/-- What `answer` can do. -/
theorem answer_eq_next_iff (o : Except Refusal State) (r : Response) (t : State) :
    answer o r = .next t ↔ ∃ u, o = .ok u ∧ t = u.respond r := by
  cases o <;> simp [answer, eq_comm]

/-- C.APPLY reads and writes the counter only: the decoder's state may be written before or after it. -/
theorem cApply_setState (d : Direction) (s : State) (q : QState) :
    cApply d (s.setState q) = (cApply d s).map fun t => t.setState q := by
  unfold cApply
  have hp : ∀ k, policyValue (s.setState q) k = policyValue s k := fun _ => rfl
  simp only [hp, State.setState_rev]
  split
  · rfl
  · split <;> rfl

/-- Everything validation can answer (R101, R135). -/
theorem validate_eq_ok_iff (c : Merged) (m : RangeMode) :
    validate c = .ok m ↔ c.mode = m.code ∧ (m ≠ .unbounded → c.minVal ≤ c.maxVal) := by
  unfold validate
  split
  next h =>
    rw [RangeMode.ofCode_eq_none_iff] at h
    have hne : (3#2 : BitVec 2) ≠ m.code := m.code_ne_three.symm
    simp [h, hne]
  next m' h =>
    rw [RangeMode.ofCode_eq_some_iff] at h
    have hinj : m'.code = m.code ↔ m' = m := by cases m' <;> cases m <;> decide
    rw [h, hinj]
    split <;> grind

end Sys2Proof.Machine
end

