-- ==== Sys2Proof/Laws/PerInstr.lean ====
section
/-!
SUPPORT. Laws/PerInstr.lean: statements made per command. Family `TableRow`: the word of a command lies in the
row of its mnemonic and in no other (30_encoding.md R46).
-/

namespace Sys2Proof.Laws.TableRow

/-- The rows of R46 that hold the command's word are exactly the row of its mnemonic. -/
def Statement (i : Instr) : Prop :=
  (commandTable.filter fun r => r.holds (encode i).cw).map CommandRow.mnemonic = [i.mnemonic]

theorem nop : Statement .nop := by unfold Statement; decide
theorem step (a b : Bool) : Statement (.step a b) := by
  unfold Statement; cases a <;> cases b <;> decide
theorem apply (d : Direction) : Statement (.apply d) := by
  unfold Statement; cases d <;> decide
theorem read : Statement .read := by unfold Statement; decide
theorem drst : Statement .drst := by unfold Statement; decide
theorem crst : Statement .crst := by unfold Statement; decide
theorem cfg (v n x : Option Int) (r : Option Bool) (m : Option (BitVec 2)) : Statement (.cfg v n x r m) := by
  have h : ∀ f : BitVec 5,
      (commandTable.filter fun r => r.holds (opWord 0b110#3 f)).map CommandRow.mnemonic = ["CFG"] := by decide
  exact h _

end Sys2Proof.Laws.TableRow
end

