-- ==== Sys2Proof/Laws/Table.lean ====
section
/-!
SUPPORT. Laws/Table.lean: the small lemmas of the decoder's codes, of the ROM and of its two unit operations.
-/

namespace Sys2Proof.Machine

@[simp] theorem QState.ofCode_code (q : QState) : QState.ofCode q.code = q := by cases q <;> rfl

@[simp] theorem QState.code_ofCode (c : BitVec 3) : (QState.ofCode c).code = c := by revert c; decide

/-- R6: `NSTATES` rows of four entries. -/
theorem romImage_length : romImage.length = 32 := rfl

/-- R47: the packing puts A in bit 1 and B in bit 0. -/
@[simp] theorem sampleCode_bits (c : Code) : sampleCode (c.getLsbD 1) (c.getLsbD 0) = c := by revert c; decide

@[simp] theorem sampleCode_bit1 (a b : Bool) : (sampleCode a b).getLsbD 1 = a := by revert a b; decide

@[simp] theorem sampleCode_bit0 (a b : Bool) : (sampleCode a b).getLsbD 0 = b := by revert a b; decide

/-- R86: no entry carries both flags. -/
theorem table_flags_exclusive (q : QState) (c : Code) :
    ((table q c).getLsbD 4 && (table q c).getLsbD 5) = false := by
  revert c; cases q <;> decide

/-- R81: no entry has next state 7. -/
theorem entryNext_table_ne_illegal (q : QState) (c : Code) : entryNext (table q c) ≠ .illegal := by
  revert c; cases q <;> decide

/-- R84: code 11 leads to START. -/
@[simp] theorem entryNext_table_rest (q : QState) : entryNext (table q 0b11#2) = .start := by cases q <;> rfl

/-- Everything Q.STEP does (R65). -/
theorem qStep_eq (a b : Bool) (s : State) :
    qStep a b s = (entryDir (table s.state (sampleCode a b)), s.setState (entryNext (table s.state (sampleCode a b)))) :=
  rfl

end Sys2Proof.Machine
end

