-- ==== Sys2Proof/Laws/Step.lean ====
section
/-!
SUPPORT. Laws/Step.lean: what each meaning and one step can do, said once (inversion lemmas).
-/

namespace Sys2Proof.Machine

/-- APPLY, when it is not refused. -/
theorem execApply_eq_next_iff (d : Direction) (s t : State) :
    execApply d s = .next t ↔ ∃ u, cApply d s = .ok u ∧ t = u.respond okResponse := answer_eq_next_iff _ _ _

/-- STEP, when it is not refused. -/
theorem execStep_eq_next_iff (a b : Bool) (s t : State) :
    execStep a b s = .next t ↔
      ∃ u, cApply (entryDir (table s.state (sampleCode a b))) s = .ok u ∧
        t = (u.setState (entryNext (table s.state (sampleCode a b)))).respond
          (dirResponse (entryDir (table s.state (sampleCode a b)))) := by
  rw [execStep, answer_eq_next_iff, qStep_eq]
  simp only [cApply_setState]
  cases cApply (entryDir (table s.state (sampleCode a b))) s <;> simp [Except.map]

/-- CFG either commits its merged configuration or is rejected with the state as it was. -/
theorem execCfg_cases (v n x : Option Int) (r : Option Bool) (m : Option (BitVec 2)) (s : State) :
    (∃ mode, validate (merge v n x r m s) = .ok mode ∧
      execCfg v n x r m s = .next ((commit (merge v n x r m s) mode s).respond okResponse)) ∨
    (∃ e, validate (merge v n x r m s) = .error e ∧ execCfg v n x r m s = .next (s.respond (errResponse e))) := by
  unfold execCfg raiseErr
  cases h : validate (merge v n x r m s) with
  | ok mode => exact .inl ⟨mode, rfl, by simp only [h]⟩
  | error e => exact .inr ⟨e, rfl, by simp only [h]⟩

/-- Every meaning writes START, the table's next state or nothing to `state`, so it never puts ILLEGAL there
(R81). -/
theorem exec_state_cases {i : Instr} {s t : State} (h : exec i s = .next t) :
    t.state = s.state ∨ t.state = .start ∨ ∃ c, t.state = entryNext (table s.state c) := by
  cases i with
  | nop => cases h; exact .inl rfl
  | read => cases h; exact .inl rfl
  | drst => cases h; exact .inr (.inl rfl)
  | crst => cases h; exact .inl rfl
  | step a b =>
    obtain ⟨u, -, rfl⟩ := (execStep_eq_next_iff a b s t).1 h
    exact .inr (.inr ⟨sampleCode a b, rfl⟩)
  | apply d =>
    obtain ⟨u, hu, rfl⟩ := (execApply_eq_next_iff d s t).1 h
    rcases cApply_cases hu with ⟨-, rfl⟩ | ⟨k, v, -, -, rfl⟩ <;> exact .inl rfl
  | cfg v n x r m =>
    rcases execCfg_cases v n x r m s with ⟨mode, -, he⟩ | ⟨e, -, he⟩
    · rw [exec, he] at h; cases h; exact .inr (.inl rfl)
    · rw [exec, he] at h; cases h; exact .inl rfl

/-- Everything one step can do. -/
theorem step_cases (s : State) :
    (s.inputs = [] ∧ step s = exec .nop s) ∨
    (∃ rest, s.inputs = .reset :: rest ∧ step s = .next (hardwareReset (s.setInputs rest))) ∨
    (∃ c rest e, s.inputs = .command c :: rest ∧ decode c = .error e ∧
      step s = raiseErr .errCmd (s.setInputs rest)) ∨
    (∃ c rest i, s.inputs = .command c :: rest ∧ decode c = .ok i ∧ i.wellFormed s.params.width = true ∧
      step s = exec i (s.setInputs rest)) ∨
    (∃ c rest i, s.inputs = .command c :: rest ∧ decode c = .ok i ∧ i.wellFormed s.params.width = false ∧
      step s = .refused .operandNotRepresentable) := by
  unfold step runNext
  cases hin : s.inputs with
  | nil => exact .inl ⟨rfl, rfl⟩
  | cons i rest =>
    cases i with
    | reset => exact .inr (.inl ⟨rest, rfl, rfl⟩)
    | command c =>
      simp only [runInput, runCommand, State.setInputs_params]
      cases hd : decode c with
      | error e => exact .inr (.inr (.inl ⟨c, rest, e, rfl, hd, rfl⟩))
      | ok i =>
        by_cases hw : i.wellFormed s.params.width = true
        · exact .inr (.inr (.inr (.inl ⟨c, rest, i, rfl, hd, hw, by simp [hw]⟩)))
        · exact .inr (.inr (.inr (.inr ⟨c, rest, i, rfl, hd, by simpa using hw, by simp [hw]⟩)))

end Sys2Proof.Machine
end

