-- ==== Sys2Proof/Laws/Run.lean ====
section
/-!
SUPPORT. Laws/Run.lean: the small lemmas of runs and of the decoder alone.
-/

namespace Sys2Proof.Machine

@[simp] theorem runFor_zero (s : State) : runFor 0 s = .next s := rfl

/-- A run of `k + 1` steps is one step and a run of `k`. -/
theorem runFor_succ (k : Nat) (s : State) :
    runFor (k + 1) s =
      match step s with
      | .next t => runFor k t
      | .fault f => .fault f
      | .refused r => .refused r := by
  unfold runFor
  cases h : step s <;> simp [Host.Core.run, Sys2Proof.core, h]

@[simp] theorem qRun_nil (q : QState) : qRun q [] = q := rfl

@[simp] theorem qRun_cons (q : QState) (c : Code) (cs : List Code) : qRun q (c :: cs) = qRun (qNext q c) cs := rfl

@[simp] theorem qDirs_nil (q : QState) : qDirs q [] = [] := rfl

@[simp] theorem qDirs_cons (q : QState) (c : Code) (cs : List Code) :
    qDirs q (c :: cs) = qDir q c :: qDirs (qNext q c) cs := rfl

/-- The decoder's run over two lists is the run over the second from where the first ends. -/
theorem qRun_append (q : QState) (cs ds : List Code) : qRun q (cs ++ ds) = qRun (qRun q cs) ds := by
  induction cs generalizing q with
  | nil => rfl
  | cons c cs ih => exact ih _

@[simp] theorem lastResponse_nil (r : Option Response) : lastResponse [] r = r := rfl

/-- One STEP first: its response is the one from before for the rest. -/
@[simp] theorem lastResponse_cons (d : Direction) (ds : List Direction) (r : Option Response) :
    lastResponse (d :: ds) r = lastResponse ds (some ⟨d, .ok, 0⟩) := by
  cases ds with
  | nil => rfl
  | cons e es =>
    obtain ⟨x, hx⟩ : ∃ x, (e :: es).getLast? = some x := ⟨_, List.getLast?_eq_some_getLast (by simp)⟩
    simp [lastResponse, List.getLast?_cons_cons, hx]

@[simp] theorem samples_nil : samples [] = [] := rfl

@[simp] theorem samples_cons (c : Code) (cs : List Code) :
    samples (c :: cs) = .command (encode (stepOf c)) :: samples cs := rfl

/-- One report more moves the net number by one. -/
theorem netReports_cons (d : Direction) (ds : List Direction) :
    netReports (d :: ds) =
      netReports ds + (if d = .clockwise then 1 else if d = .counterClockwise then -1 else 0) := by
  cases d <;> simp [netReports] <;> omega

@[simp] theorem QState.mirror_mirror (q : QState) : q.mirror.mirror = q := by cases q <;> rfl

/-- R88 with R50: a mirrored direction under the other reversal setting forms the same increment. -/
theorem increment_mirror (d : Direction) (rev : Bool) : increment (Direction.mirror d) (!rev) = increment d rev := by
  cases d <;> cases rev <;> rfl

end Sys2Proof.Machine
end

