-- ==== Sys2Proof/Tests/Slice0.lean ====
section
/-!
SUPPORT. Tests/Slice0.lean: the model's own tests, their expected results taken from spec/95_test_vectors.md and
the worked examples of the rules, and one witness for the hypotheses of each statement that has some.
-/

namespace Sys2Proof.Tests

open Sys2Proof Sys2Proof.Machine

/-- A state tuple `(state, value, min_val, max_val, rev, mode)` of an instance of width `w`. -/
def tupleW (w : Width) (q : QState) (v lo hi : Int) (r : Bool) (m : RangeMode) : State :=
  { State.construct { Params.standard with width := w } with
    state := q, value := v, minVal := lo, maxVal := hi, rev := r, mode := m }

/-- The same with `W` = `inf`, as 95_test_vectors.md has it where it says nothing. -/
def tuple (q : QState) (v lo hi : Int) (r : Bool) (m : RangeMode) : State := tupleW .inf q v lo hi r m

/-- Whether an outcome is a next state that satisfies `p`. -/
def nextHas (o : Host.Outcome State Fault Refusal) (p : State → Bool) : Bool :=
  match o with
  | .next t => p t
  | .fault _ => false
  | .refused _ => false

/-- Whether an outcome is the refusal `r`. -/
def refusedWith (o : Host.Outcome State Fault Refusal) (r : Refusal) : Bool :=
  match o with
  | .next _ => false
  | .fault _ => false
  | .refused q => q == r

/-! ### Decoding: words written out bit by bit from the patterns of 30_encoding.md R46 (vectors E1) -/

theorem test_decode_format_n :
    decode (.ofWord 0b00000000#8) = .ok .nop ∧ decode (.ofWord 0b01100000#8) = .ok .read ∧
      decode (.ofWord 0b10000000#8) = .ok .drst ∧ decode (.ofWord 0b10100000#8) = .ok .crst := by decide

theorem test_decode_format_s :
    decode (.ofWord 0b00100000#8) = .ok (.step false false) ∧ decode (.ofWord 0b00100001#8) = .ok (.step false true) ∧
      decode (.ofWord 0b00100010#8) = .ok (.step true false) ∧ decode (.ofWord 0b00100011#8) = .ok (.step true true) := by
  decide

theorem test_decode_format_d :
    decode (.ofWord 0b01000000#8) = .ok (.apply .none) ∧ decode (.ofWord 0b01000001#8) = .ok (.apply .clockwise) ∧
      decode (.ofWord 0b01000010#8) = .ok (.apply .counterClockwise) := by decide

theorem test_decode_format_c :
    decode ⟨0b11000110#8, 1, 2, 3, true, 1#2⟩ = .ok (.cfg none none (some 3) (some true) none) ∧
      decode ⟨0b11010000#8, 1, 2, 3, true, 1#2⟩ = .ok (.cfg (some 1) none none none none) ∧
      decode ⟨0b11001001#8, 1, 2, 3, true, 1#2⟩ = .ok (.cfg none (some 2) none none (some 1#2)) := by decide

/-- The reserved words of vectors E1, each by its class. -/
theorem test_decode_reserved :
    decode (.ofWord 0x01#8) = .error .lowerField ∧ decode (.ofWord 0x24#8) = .error .upperField ∧
      decode (.ofWord 0x43#8) = .error .direction11 ∧ decode (.ofWord 0xE0#8) = .error .opcode111 ∧
      decode (.ofWord 0xBF#8) = .error .upperField := by decide

/-- 30_encoding.md R57: command word 0xDF for CFG.ALL, 0xC0 for CFG.NONE, 0x22 0x20 0x21 0x23 for DETENT.CW. -/
theorem test_encode_pseudo_commands :
    (encode (cfgAll 1 (-4) 4 true 1#2)).cw = 0xDF#8 ∧ (encode cfgNone).cw = 0xC0#8 ∧
      detentCw.map (fun i => (encode i).cw) = [0x22#8, 0x20#8, 0x21#8, 0x23#8] ∧
      detentCcw.map (fun i => (encode i).cw) = [0x21#8, 0x20#8, 0x22#8, 0x23#8] := by decide

/-- 30_encoding.md R56. -/
theorem test_text :
    (Instr.step true false).text = "STEP 10" ∧ (Instr.apply .counterClockwise).text = "APPLY CCW" ∧
      (Instr.cfg none (some 5) none none (some 3#2)).text = "CFG min=5 mode=3" := by decide

/-! ### WellFormed: an ill-formed term for each check (W = 8 holds -128..127, R97) -/

theorem test_wellFormed_value : (Instr.cfg (some 128) none none none none).wellFormed (.bits 8) = false := by decide
theorem test_wellFormed_min : (Instr.cfg none (some (-129)) none none none).wellFormed (.bits 8) = false := by decide
theorem test_wellFormed_max : (Instr.cfg none none (some 128) none none).wellFormed (.bits 8) = false := by decide
theorem test_wellFormed_ends :
    (Instr.cfg (some 127) (some (-128)) (some 127) none (some 3#2)).wellFormed (.bits 8) = true := by decide

/-! ### One step of each command -/

/-- R115. -/
theorem test_nop : nextHas (exec .nop (tuple .cw2 7 5 9 true .wrap)) fun t =>
    t.state = .cw2 ∧ t.value = 7 ∧ t.resp = some ⟨.none, .ok, 0⟩ := by decide

/-- R116, worked example: (CW_3, 3, 0, 3, 0, Wrap) with STEP 11. -/
theorem test_step_wrap : nextHas (exec (.step true true) (tuple .cw3 3 0 3 false .wrap)) fun t =>
    t.state = .start ∧ t.value = 0 ∧ t.resp = some ⟨.clockwise, .ok, 0⟩ := by decide

/-- Vectors P3 line 8: the detent is absorbed at the bound and still reported. -/
theorem test_step_absorbed : nextHas (exec (.step true true) (tuple .cw3 3 0 3 false .bounded)) fun t =>
    t.value = 3 ∧ t.resp = some ⟨.clockwise, .ok, 0⟩ := by decide

/-- Vectors A1: -6, CCW in 0..3 gives 1 (a truncating modulo would give -3). -/
theorem test_apply_floored : nextHas (exec (.apply .counterClockwise) (tuple .start (-6) 0 3 false .wrap)) fun t =>
    t.value = 1 := by decide

/-- Vectors A3 with W = 8: 127 is refused, 126 gives 127. -/
theorem test_apply_width :
    refusedWith (exec (.apply .clockwise) (tupleW (.bits 8) .start 127 0 3 false .unbounded)) .unboundedOverflow = true ∧
      nextHas (exec (.apply .clockwise) (tupleW (.bits 8) .start 126 0 3 false .unbounded)) (fun t => t.value = 127) := by
  decide

/-- R118, worked example. -/
theorem test_read : nextHas (exec .read (tuple .cw1 (-3) 0 10 false .unbounded)) fun t =>
    t.state = .cw1 ∧ t.resp = some ⟨.none, .ok, -3⟩ := by decide

/-- R119, worked example. -/
theorem test_drst : nextHas (exec .drst (tuple .ccw3 4 0 10 false .bounded)) fun t =>
    t.state = .start ∧ t.value = 4 := by decide

/-- R120, worked example. -/
theorem test_crst : nextHas (exec .crst (tuple .cw2 7 5 9 true .wrap)) fun t =>
    t.state = .cw2 ∧ t.value = 0 := by decide

/-- Vectors C1.10: `min=5 mode=3` from (CW_3, 2, 0, 3, 0, W) is ERR_MODE and keeps CW_3. -/
theorem test_cfg_mode_first : nextHas (exec (.cfg none (some 5) none none (some 3#2)) (tuple .cw3 2 0 3 false .wrap)) fun t =>
    t.state = .cw3 ∧ t.minVal = 0 ∧ t.resp = some ⟨.none, .errMode, 0⟩ := by decide

/-- Vectors C1.11: `min=5 mode=U`, inverted bounds accepted in Unbounded mode. -/
theorem test_cfg_inverted_unbounded :
    nextHas (exec (.cfg none (some 5) none none (some 0#2)) (tuple .cw3 2 0 3 false .wrap)) fun t =>
      t.state = .start ∧ t.minVal = 5 ∧ t.mode = .unbounded ∧ t.resp = some ⟨.none, .ok, 0⟩ := by decide

/-- A reserved word from a state set up by the environment (P4 line 4), and the next input still pending. -/
theorem test_step_reserved :
    nextHas (step ((tuple .cw3 2 0 3 false .wrap).setInputs [.command (.ofWord 0x43#8), .reset])) fun t =>
      t.state = .cw3 ∧ t.resp = some ⟨.none, .errCmd, 0⟩ ∧ t.inputs = [.reset] := by decide

/-- 10_state.md R12 and 60_exceptions.md R141: `q_state` shows CCW_2 as 5. P4 line 3: `err` of ERR_MODE is 2. -/
theorem test_qState : (tuple .ccw2 0 0 0 false .unbounded).qState = 5#3 ∧ ErrCode.errMode.code = 2#2 := by decide

/-- A program comes to run from reset by being presented. -/
theorem test_withFetchWord_runs : nextHas (step (State.reset.withFetchWord 8 0x22)) fun t => t.state = .cw1 := by decide

/-! ### Witnesses: states and operands that meet the hypotheses of each statement -/

/-- A state with `i` presented and nothing after it. -/
def presenting (i : Instr) (s : State) : State := s.setInputs (presented [i])

theorem witness_StepOperandIsTheLowBits : decode (.ofWord 0x22#8) = .ok (.step true false) := by decide

theorem witness_CfgArgumentsFollowWriteEnables :
    decode ⟨0xC6#8, 9, 9, 5, true, 3#2⟩ = .ok (.cfg none none (some 5) (some true) none) := by decide

theorem witness_DecodedWordsReencode : decode ⟨0xC6#8, 9, 9, 5, true, 3#2⟩ = .ok (.cfg none none (some 5) (some true) none) :=
  witness_CfgArgumentsFollowWriteEnables

theorem witness_StepRunsTheDecodedCommand :
    (presenting (.step true true) State.reset).inputs = .command (.ofWord 0x23#8) :: [] ∧
      decode (.ofWord 0x23#8) = .ok (.step true true) ∧
      (Instr.step true true).wellFormed (presenting (.step true true) State.reset).params.width = true := by decide

theorem witness_ReservedWordIsRejected :
    (State.reset.setInputs [.command (.ofWord 0x43#8)]).inputs = .command (.ofWord 0x43#8) :: [] ∧
      decode (.ofWord 0x43#8) = .error .direction11 := by decide

theorem witness_HardwareResetGivesTheTuple :
    ((tuple .cw3 2 0 3 true .wrap).setInputs [.reset]).inputs = .reset :: [] := by decide

theorem witness_UnpresentableInputs_idle : State.reset.inputs = [] := by decide

theorem witness_UnpresentableInputs_operand :
    decode ⟨0xD0#8, 128, 0, 0, false, 0#2⟩ = .ok (.cfg (some 128) none none none none) ∧
      (Instr.cfg (some 128) none none none none).wellFormed (tupleW (.bits 8) .start 0 0 3 false .wrap).params.width =
        false := by decide

theorem witness_FetchWordIsRunNext : decodeTableWord 8 0xC0 = some cfgNone := by decide

theorem witness_StepTakesOneInput : ∃ t, step (presenting .read State.reset) = .next t := ⟨_, rfl⟩

theorem witness_RejectionChangesNoRegister :
    ∃ t, step (presenting (.cfg none (some 5) none none none) (tuple .cw3 2 0 3 false .wrap)) = .next t ∧
      t.resp = some ⟨.none, .errRange, 0⟩ ∧ ErrCode.errRange ≠ .ok := ⟨_, rfl, rfl, by decide⟩

theorem witness_RejectionIsFollowedAsANop :
    ∃ t, step (presenting (.cfg none none none none (some 3#2)) (tuple .cw3 2 0 3 false .wrap)) = .next t ∧
      t.resp = some ⟨.none, .errMode, 0⟩ ∧ ErrCode.errMode ≠ .ok := ⟨_, rfl, rfl, by decide⟩

theorem witness_StateTellsTheLastCode :
    (∃ t, exec (.step false false) (tuple .cw1 0 0 3 false .wrap) = .next t ∧ sampleCode false false = 0b00#2) ∧
    (∃ t, exec (.step false true) (tuple .cw2 0 0 3 false .wrap) = .next t ∧ sampleCode false true = 0b01#2) ∧
    (∃ t, exec (.step true false) (tuple .ccw2 0 0 3 false .wrap) = .next t ∧ sampleCode true false = 0b10#2) ∧
    (∃ t, exec (.step true true) (tuple .ccw3 0 0 3 false .wrap) = .next t ∧ sampleCode true true = 0b11#2) :=
  ⟨⟨_, rfl, rfl⟩, ⟨_, rfl, rfl⟩, ⟨_, rfl, rfl⟩, ⟨_, rfl, rfl⟩⟩

theorem witness_RepeatedSampleIsHarmless :
    ∃ t, exec (.step true false) (tuple .start 0 0 3 false .wrap) = .next t ∧ t.state ≠ .start :=
  ⟨_, rfl, by decide⟩

/-- A run of the codes 11, 10, 00, 01: the most recent step that started in START is the second. -/
theorem witness_ClockwiseReportNeedsTheFullWalk :
    ∃ t, runFor ([0b11#2] ++ [0b10#2, 0b00#2, 0b01#2]).length
        ((tuple .start 0 0 3 false .wrap).setInputs (samples ([0b11#2] ++ [0b10#2, 0b00#2, 0b01#2]))) = .next t ∧
      qRun .start [0b11#2] = .start ∧ t.state = .cw3 ∧ PathWalk 0b10#2 0b01#2 [0b10#2, 0b00#2, 0b01#2] ∧
      ∀ u, u <+: [0b10#2, 0b00#2, 0b01#2] → u ≠ [] → u ≠ [0b10#2, 0b00#2, 0b01#2] →
        qRun .start ([0b11#2] ++ u) ≠ .start := by
  refine ⟨_, rfl, by decide, rfl, by decide, fun u hu h0 h3 => ?_⟩
  rcases List.mem_inits _ _ |>.2 hu |> fun h => by simpa [List.inits] using h with rfl | rfl | rfl | rfl
  · exact absurd rfl h0
  · decide
  · decide
  · exact absurd rfl h3

/-- The same for 11, 01, 00, 10. -/
theorem witness_CounterClockwiseReportNeedsTheFullWalk :
    ∃ t, runFor ([0b11#2] ++ [0b01#2, 0b00#2, 0b10#2]).length
        ((tuple .start 0 0 3 false .wrap).setInputs (samples ([0b11#2] ++ [0b01#2, 0b00#2, 0b10#2]))) = .next t ∧
      qRun .start [0b11#2] = .start ∧ t.state = .ccw3 ∧ PathWalk 0b01#2 0b10#2 [0b01#2, 0b00#2, 0b10#2] ∧
      ∀ u, u <+: [0b01#2, 0b00#2, 0b10#2] → u ≠ [] → u ≠ [0b01#2, 0b00#2, 0b10#2] →
        qRun .start ([0b11#2] ++ u) ≠ .start := by
  refine ⟨_, rfl, by decide, rfl, by decide, fun u hu h0 h3 => ?_⟩
  rcases List.mem_inits _ _ |>.2 hu |> fun h => by simpa [List.inits] using h with rfl | rfl | rfl | rfl
  · exact absurd rfl h0
  · decide
  · decide
  · exact absurd rfl h3

/-- The bounce of vectors S4. -/
theorem witness_NoRestCodeNoReport :
    ((tuple .start 0 0 10 false .unbounded).setInputs (samples [0b00#2, 0b10#2, 0b00#2])).inputs =
        samples [0b00#2, 0b10#2, 0b00#2] ∧ 0b11#2 ∉ [0b00#2, 0b10#2, 0b00#2] := by decide

theorem witness_CleanCyclesAreTheShortestReports :
    [0b10#2, 0b00#2, 0b01#2, 0b11#2].length ≤ 4 ∧
      ∃ d ∈ qDirs .start [0b10#2, 0b00#2, 0b01#2, 0b11#2], d ≠ .none := by decide

theorem witness_CleanDetentAppliesItsDirection :
    (tuple .start 0 0 3 false .wrap).state = .start ∧
      ((tuple .start 0 0 3 false .wrap).setInputs (presented detentCw ++ [.reset])).inputs =
        presented detentCw ++ [.reset] ∧
      ∃ t, exec (.apply .clockwise) ((tuple .start 0 0 3 false .wrap).setInputs [.reset]) = .next t :=
  ⟨rfl, rfl, _, rfl⟩

theorem witness_MirroredStepIsCompensatedByReversal :
    ∃ t, exec (.step true true) (tuple .cw3 3 0 3 false .wrap) = .next t := ⟨_, rfl⟩

theorem witness_IllegalIsNeverReached :
    ((tuple .cw2 2 0 3 true .bounded).state ≠ .illegal ∧
      ∃ t, step (presenting cfgNone (tuple .cw2 2 0 3 true .bounded)) = .next t) ∧
    ∃ t, runFor 2 { State.construct Params.standard with inputs := samples [0b10#2, 0b00#2] } = .next t :=
  ⟨⟨by decide, _, rfl⟩, _, rfl⟩

/-- DRST, and an accepted CFG, in the middle of a detent. -/
theorem witness_ReconfigurationDiscardsThePartialDetent :
    (∃ t, exec .drst ((tuple .cw2 2 0 3 true .bounded).setInputs (samples [0b01#2, 0b11#2])) = .next t ∧
      t.resp = some ⟨.none, .ok, 0⟩) ∧
    (∃ t, exec cfgNone ((tuple .cw2 2 0 3 true .bounded).setInputs (samples [0b01#2, 0b11#2])) = .next t ∧
      t.resp = some ⟨.none, .ok, 0⟩) ∧ [0b01#2, 0b11#2].length ≤ 3 :=
  ⟨⟨_, rfl, rfl⟩, ⟨_, rfl, rfl⟩, by decide⟩

/-- W = 8: 126 + 1 is held, 127 + 1 is not. -/
theorem witness_ApplyUnboundedAddsTheIncrement :
    (1 : Int) = (if Direction.clockwise = .clockwise then 1 else -1) * (if false then -1 else 1) ∧
      (Width.bits 8).represents (126 + 1) = true ∧ (Width.bits 8).represents (127 + 1) = false := by decide

/-- From above the range (vectors A1: 10, CW, 0..3). -/
theorem witness_ApplyWrapStoresTheInRangeMember :
    (tuple .start 10 0 3 false .wrap).mode = .wrap ∧
      (tuple .start 10 0 3 false .wrap).minVal ≤ (tuple .start 10 0 3 false .wrap).maxVal := by decide

/-- A value for each clause: above the range, below it, at `max_val` upward, at `min_val` downward (rev = 1). -/
theorem witness_ApplyBoundedStoresTheClampedSum :
    (tuple .start 4 0 3 false .bounded).maxVal < (tuple .start 4 0 3 false .bounded).value ∧
      (tuple .start (-1) 0 3 false .bounded).value < (tuple .start (-1) 0 3 false .bounded).minVal ∧
      (tuple .start 3 0 3 false .bounded).value = (tuple .start 3 0 3 false .bounded).maxVal ∧
      (tuple .start 0 0 3 true .bounded).value = (tuple .start 0 0 3 true .bounded).minVal ∧
      (-1 : Int) = (if Direction.clockwise = .clockwise then 1 else -1) * (if true then -1 else 1) := by decide

/-- Both ends of W = 8. -/
theorem witness_ApplyIsRefusedExactlyAtOverflow :
    ValidState (tupleW (.bits 8) .start 127 0 3 false .unbounded) ∧
      ValidState (tupleW (.bits 8) .start (-128) 0 3 false .unbounded) ∧
      refusedWith (exec (.apply .clockwise) (tupleW (.bits 8) .start 127 0 3 false .unbounded)) .unboundedOverflow ∧
      refusedWith (exec (.apply .counterClockwise) (tupleW (.bits 8) .start (-128) 0 3 false .unbounded))
        .unboundedOverflow := by decide

theorem witness_InvertedBoundsAreRefused :
    (tuple .start 0 5 3 false .wrap).mode ≠ .unbounded ∧
      (tuple .start 0 5 3 false .wrap).maxVal < (tuple .start 0 5 3 false .wrap).minVal := by decide

theorem witness_RangeHoldsAfterAnApply :
    (∃ t, exec (.apply .clockwise) (tuple .start 10 0 3 false .bounded) = .next t) ∧
    (∃ t, exec (.step true true) (tuple .cw3 10 0 3 false .wrap) = .next t ∧
      t.resp = some ⟨.clockwise, .ok, 0⟩) := ⟨⟨_, rfl⟩, ⟨_, rfl, rfl⟩⟩

/-- 41_ranged_counter.md R95: `fmod(-8, 4)` = 0, `fmod(-1, 4)` = 3, `fmod(5, 4)` = 1. -/
theorem witness_FlooredModuloIsTheResidue :
    (1 : Int) ≤ 4 ∧ fmod (-8) 4 = 0 ∧ fmod (-1) 4 = 3 ∧ fmod 5 4 = 1 := by decide

/-- Clamps from below, from above and inside (vectors A2: -4, 9 and 3 in 0..3). -/
theorem witness_ClampIsMinOfMax : (0 : Int) ≤ 3 ∧ clamp (-4) 0 3 = 0 ∧ clamp 9 0 3 = 3 ∧ clamp 3 0 3 = 3 := by decide

theorem witness_StepWithoutReportMovesOnlyTheState :
    ¬(true = true ∧ true = true ∧ ((tuple .cw2 0 0 3 false .wrap).state = .cw3 ∨
      (tuple .cw2 0 0 3 false .wrap).state = .ccw3)) := by decide

/-- A state for each mode and each direction. -/
theorem witness_ReportingStepMovesTheCounter :
    (tupleW (.bits 8) .cw3 126 0 3 false .unbounded).params.width.represents (126 + 1) = true ∧
      (tuple .ccw3 0 0 3 false .wrap).minVal ≤ (tuple .ccw3 0 0 3 false .wrap).maxVal ∧
      (tuple .cw3 3 3 3 true .bounded).minVal ≤ (tuple .cw3 3 3 3 true .bounded).maxVal := by decide

/-- Vectors C1.14: `mode=B` (code 2) with `min_val` = `max_val`; C1.2: `mode=W` is code 1; C1.11: `mode=U` is
code 0, on bounds that are inverted. -/
theorem witness_AcceptedCfgCommitsTheMergedConfiguration :
    nextHas (exec (.cfg none none none none (some 2#2)) (tuple .start 2 3 3 false .wrap)) (fun t => t.mode = .bounded) ∧
      nextHas (exec (cfgAll 1 (-4) 4 true 1#2) (tuple .cw2 7 0 10 false .bounded)) (fun t => t.mode = .wrap) ∧
      nextHas (exec (.cfg none (some 5) none none (some 0#2)) (tuple .cw3 2 0 3 false .wrap))
        (fun t => t.mode = .unbounded) ∧
      (none : Option Int).getD (tuple .start 2 3 3 false .wrap).minVal ≤
        (none : Option Int).getD (tuple .start 2 3 3 false .wrap).maxVal := by decide

/-- Vectors C1.11 and C1.14: accepted with mode U on inverted bounds, and with bounds that are equal. -/
theorem witness_InvalidCfgIsRejected_accepted :
    (some 0#2 : Option (BitVec 2)) ≠ some 3#2 ∧
      (none : Option Int).getD (tuple .start 2 3 3 false .wrap).minVal ≤
        (none : Option Int).getD (tuple .start 2 3 3 false .wrap).maxVal := by decide

/-- Vectors C1.7: `max=-1` against the retained minimum 0, in Wrap. -/
theorem witness_InvalidCfgIsRejected :
    (none : Option (BitVec 2)) ≠ some 3#2 ∧ (tuple .cw3 2 0 3 false .wrap).mode ≠ .unbounded ∧
      (some (-1)).getD (tuple .cw3 2 0 3 false .wrap).maxVal <
        (none : Option Int).getD (tuple .cw3 2 0 3 false .wrap).minVal := by decide

/-- Vectors C1.13: 0xC0 with `cfg_mode` = 3 on the port. -/
theorem witness_CfgNoneOnlyResetsTheDecoder :
    ValidState ((tuple .start 2 0 3 false .wrap).setInputs [.command ⟨0xC0#8, 0, 0, 0, false, 3#2⟩]) := by decide

theorem witness_EachRegisterHasItsWriters : ∃ t, exec .crst (tuple .cw2 7 5 9 true .wrap) = .next t := ⟨_, rfl⟩

theorem witness_EveryStepKeepsTheInvariant :
    ValidState (presenting .crst (tupleW (.bits 8) .cw2 7 5 9 true .wrap)) ∧
      ∃ t, step (presenting .crst (tupleW (.bits 8) .cw2 7 5 9 true .wrap)) = .next t := ⟨by decide, _, rfl⟩

/-- A construction outside its own bounds is valid (R151). -/
theorem witness_InvariantHoldsAtReset :
    ({ Params.standard with width := .bits 8, initValue := 9, initMax := 3, initMode := .wrap } : Params).Valid := by
  decide

/-- Unlimited width, and both refusals of a finite one. -/
theorem witness_StepsAnswer :
    ValidState State.reset ∧ State.reset.params.width = .inf ∧
      ValidState (presenting (.apply .clockwise) (tupleW (.bits 8) .start 127 0 3 false .unbounded)) ∧
      refusedWith (step (presenting (.apply .clockwise) (tupleW (.bits 8) .start 127 0 3 false .unbounded)))
        .unboundedOverflow ∧
      refusedWith (step (presenting (.cfg (some 128) none none none none) (tupleW (.bits 8) .start 0 0 3 false .wrap)))
        .operandNotRepresentable := by decide

theorem witness_UnboundedValueCountsTheReports :
    ((tuple .start 0 0 10 true .unbounded).setInputs (samples [0b10#2, 0b00#2, 0b01#2, 0b11#2])).inputs =
        samples [0b10#2, 0b00#2, 0b01#2, 0b11#2] ∧ (tuple .start 0 0 10 true .unbounded).mode = .unbounded ∧
      (tuple .start 0 0 10 true .unbounded).params.width = .inf := by decide

theorem witness_ReversalNegatesTheUnboundedChange :
    ((tuple .start 0 0 10 false .unbounded).setInputs (samples [0b10#2])).inputs = samples [0b10#2] ∧
      (tuple .start 0 0 10 false .unbounded).mode = .unbounded ∧
      (tuple .start 0 0 10 false .unbounded).params.width = .inf := by decide

theorem witness_SampleRunsAreDecoderThenCounter :
    ((tuple .start 0 0 10 false .wrap).setInputs (samples [0b10#2])).inputs = samples [0b10#2] := by decide

theorem witness_WrapValueCountsTheReportsModulo :
    (tuple .cw3 9 0 3 false .wrap).mode = .wrap ∧
      (tuple .cw3 9 0 3 false .wrap).minVal ≤ (tuple .cw3 9 0 3 false .wrap).maxVal ∧
      ∃ d ∈ qDirs (tuple .cw3 9 0 3 false .wrap).state [0b11#2], d ≠ .none := by decide

theorem witness_DecoderIgnoresTheCounterWithoutCfg :
    (tuple .cw3 9 0 3 false .wrap).state = (tuple .cw3 1 0 8 true .bounded).state ∧
      (∃ t, runFor 2 ((tuple .cw3 9 0 3 false .wrap).setInputs (presented [.step true true, .crst])) = .next t) ∧
      (∃ t, runFor 2 ((tuple .cw3 1 0 8 true .bounded).setInputs (presented [.step true true, .crst])) = .next t) :=
  ⟨rfl, ⟨_, rfl⟩, ⟨_, rfl⟩⟩

end Sys2Proof.Tests
end

section
/-!
PROOF. Proofs/Scope.lean: when a step is refused (00_scope.md R5, 41_ranged_counter.md R97, R104, log 6).
-/

namespace Sys2Proof

/-- A port of unlimited width carries every operand a command can have. -/
theorem Instr.wellFormed_inf (i : Instr) : i.wellFormed .inf = true := by
  have hfits : ∀ o, operandFits .inf o = true := by intro o; cases o <;> rfl
  cases i <;> simp [Instr.wellFormed, hfits]

end Sys2Proof

namespace Sys2Proof.Machine

/-- R97: the Unbounded sum is refused exactly where the width cannot hold it. -/
theorem unboundedValue_eq_error_iff (s : State) (k : Int) (r : Refusal) :
    unboundedValue s k = .error r ↔
      r = .unboundedOverflow ∧ s.params.width.represents (s.value + k) = false := by
  unfold unboundedValue; split <;> simp_all [eq_comm (a := r)]

/-- R104: the Wrap policy is refused exactly on inverted bounds. -/
theorem wrapValue_eq_error_iff (s : State) (k : Int) (r : Refusal) :
    wrapValue s k = .error r ↔ r = .invertedBounds ∧ s.maxVal < s.minVal := by
  unfold wrapValue; split <;> simp_all [eq_comm (a := r)]

/-- R104: the Bounded policy is refused exactly on inverted bounds. -/
theorem boundedValue_eq_error_iff (s : State) (k : Int) (r : Refusal) :
    boundedValue s k = .error r ↔ r = .invertedBounds ∧ s.maxVal < s.minVal := by
  unfold boundedValue; split <;> simp_all [eq_comm (a := r)]

/-- R97, R104: everything the case analysis on `mode` can refuse. -/
theorem policyValue_eq_error_iff (s : State) (k : Int) (r : Refusal) :
    policyValue s k = .error r ↔
      (r = .unboundedOverflow ∧ s.mode = .unbounded ∧ s.params.width.represents (s.value + k) = false) ∨
      (r = .invertedBounds ∧ s.mode ≠ .unbounded ∧ s.maxVal < s.minVal) := by
  unfold policyValue
  cases hm : s.mode with
  | unbounded => simp [unboundedValue_eq_error_iff]
  | wrap => simp [wrapValue_eq_error_iff]
  | bounded => simp [boundedValue_eq_error_iff]

/-- C.APPLY is refused exactly when a direction's increment is. -/
theorem cApply_eq_error_iff (d : Direction) (s : State) (r : Refusal) :
    cApply d s = .error r ↔ ∃ k, increment d s.rev = some k ∧ policyValue s k = .error r := by
  unfold cApply
  cases increment d s.rev with
  | none => simp
  | some k => cases hp : policyValue s k <;> simp [hp]

/-- `answer` hands on a refusal and makes none of its own. -/
theorem answer_eq_refused_iff (o : Except Refusal State) (r : Response) (e : Refusal) :
    answer o r = .refused e ↔ o = .error e := by
  cases o <;> simp [answer]

/-- A command that ends in C.APPLY is refused only where the case analysis on `mode` refuses an increment. -/
theorem answer_cApply_eq_refused {d : Direction} {s : State} {p : Response} {r : Refusal}
    (h : answer (cApply d s) p = .refused r) : ∃ k, policyValue s k = .error r := by
  have he : cApply d s = .error r := (answer_eq_refused_iff _ _ _).1 h
  obtain ⟨k, -, hk⟩ := (cApply_eq_error_iff d s r).1 he
  exact ⟨k, hk⟩

/-- Only C.APPLY, in STEP or APPLY, refuses a command: every other meaning answers. -/
theorem exec_eq_refused {i : Instr} {s : State} {r : Refusal} (h : exec i s = .refused r) :
    ∃ k, policyValue s k = .error r := by
  cases i with
  | nop => cases h
  | read => cases h
  | drst => cases h
  | crst => cases h
  | step a b => exact answer_cApply_eq_refused (s := (qStep a b s).2) h
  | apply d => exact answer_cApply_eq_refused h
  | cfg v n x c m =>
    rcases execCfg_cases v n x c m s with ⟨mode, -, he⟩ | ⟨e, -, he⟩
    · rw [exec, he] at h; cases h
    · rw [exec, he] at h; cases h

/-- R5: where R18 holds of the bounds, a step is refused only for an Unbounded sum or an operand no port can
carry, and neither happens at unlimited width. -/
theorem step_eq_refused {s : State} {r : Refusal} (hb : s.mode ≠ .unbounded → s.minVal ≤ s.maxVal)
    (h : step s = .refused r) :
    s.params.width ≠ .inf ∧ (r = .unboundedOverflow ∧ s.mode = .unbounded ∨ r = .operandNotRepresentable) := by
  rcases step_cases s with ⟨-, hs⟩ | ⟨rest, -, hs⟩ | ⟨c, rest, e, -, -, hs⟩ | ⟨c, rest, i, -, -, -, hs⟩ |
    ⟨c, rest, i, -, -, hw, hs⟩ <;> rw [hs] at h
  · cases h
  · cases h
  · cases h
  · obtain ⟨k, hk⟩ := exec_eq_refused h
    rcases (policyValue_eq_error_iff _ k r).1 hk with ⟨hr, hm, hsum⟩ | ⟨-, hm, hlt⟩
    · exact ⟨fun hinf => by simp [hinf, Width.represents] at hsum, .inl ⟨hr, hm⟩⟩
    · exact absurd (hb hm) (not_le.2 hlt)
  · cases h
    exact ⟨fun hinf => by simp [hinf, Instr.wellFormed_inf] at hw, .inr rfl⟩

/-- Settles O54: a step that has no next state is refused, and a refusal needs a finite width. -/
theorem stepsAnswer : Obligations.StepsAnswer := by
  rintro s ⟨-, -, -, -, hb⟩
  constructor
  · intro hinf
    cases h : step s with
    | next t => exact ⟨t, rfl⟩
    | fault f => cases f
    | refused r => exact absurd hinf (step_eq_refused hb h).1
  · intro r h
    exact (step_eq_refused hb h).2

end Sys2Proof.Machine
end

section
/-!
PROOF. Proofs/Effect.lean: what a command other than CFG writes, said once, and what every meaning leaves alone
(10_state.md R10, 42_top_commands.md summary table).
-/

namespace Sys2Proof.Machine

/-- R116, R117: the direction a command hands to C.APPLY, None where it does not call it. -/
def appliedDir (i : Instr) (q : QState) : Direction :=
  match i with
  | .step a b => qDir q (sampleCode a b)
  | .apply d => d
  | _ => .none

/-- R53: the direction a command answers with; APPLY answers `resp(00, OK, 0)`. -/
def answeredDir (i : Instr) (q : QState) : Direction :=
  match i with
  | .step a b => qDir q (sampleCode a b)
  | _ => .none

/-- R10: what a command other than CFG leaves in `state`. -/
def decoderAfter (i : Instr) (q : QState) : QState :=
  match i with
  | .step a b => qNext q (sampleCode a b)
  | .drst => .start
  | _ => q

/-- R10: the values a command other than CFG can leave in `value`: an apply of a direction stores what the policy
gives, CRST stores 0, everything else keeps it. -/
def ValueAfter (i : Instr) (s : State) (v : Int) : Prop :=
  (appliedDir i s.state = .none ∧ v = if i = .crst then 0 else s.value) ∨
    ∃ k, increment (appliedDir i s.state) s.rev = some k ∧ policyValue s k = .ok v

/-- A command that ends in C.APPLY leaves what its direction does to `value`. -/
theorem valueAfter_of_cApply {i : Instr} {s u : State} (hi : i ≠ .crst)
    (h : cApply (appliedDir i s.state) s = .ok u) : ∃ v, ValueAfter i s v ∧ u = s.setValue v := by
  rcases cApply_cases h with ⟨hd, rfl⟩ | ⟨k, v, hk, hv, rfl⟩
  · exact ⟨u.value, .inl ⟨hd, by simp [hi]⟩, rfl⟩
  · exact ⟨v, .inr ⟨k, hk, hv⟩, rfl⟩

/-- Everything a command other than CFG does when it is answered: it writes `value`, `state` and the response. -/
theorem exec_effect {i : Instr} {s t : State} (hc : ∀ v n x r m, i ≠ .cfg v n x r m) (h : exec i s = .next t) :
    ∃ v p, ValueAfter i s v ∧ p.dir = answeredDir i s.state ∧
      t = ((s.setValue v).setState (decoderAfter i s.state)).respond p := by
  cases i with
  | nop => cases h; exact ⟨s.value, _, .inl ⟨rfl, rfl⟩, rfl, rfl⟩
  | read => cases h; exact ⟨s.value, _, .inl ⟨rfl, rfl⟩, rfl, rfl⟩
  | drst => cases h; exact ⟨s.value, _, .inl ⟨rfl, rfl⟩, rfl, rfl⟩
  | crst => cases h; exact ⟨0, _, .inl ⟨rfl, rfl⟩, rfl, rfl⟩
  | step a b =>
    obtain ⟨u, hu, rfl⟩ := (execStep_eq_next_iff a b s t).1 h
    obtain ⟨v, hv, rfl⟩ := valueAfter_of_cApply (i := .step a b) (by simp) hu
    exact ⟨v, _, hv, rfl, rfl⟩
  | apply d =>
    obtain ⟨u, hu, rfl⟩ := (execApply_eq_next_iff d s t).1 h
    obtain ⟨v, hv, rfl⟩ := valueAfter_of_cApply (i := .apply d) (by simp) hu
    exact ⟨v, _, hv, rfl, rfl⟩
  | cfg v n x r m => exact absurd rfl (hc v n x r m)

/-- Everything CFG does: it commits the merged configuration or writes the response only. -/
theorem exec_cfg_effect {v n x : Option Int} {r : Option Bool} {m : Option (BitVec 2)} {s t : State}
    (h : exec (.cfg v n x r m) s = .next t) :
    (∃ mode, validate (merge v n x r m s) = .ok mode ∧ t = (commit (merge v n x r m s) mode s).respond okResponse) ∨
      ∃ e, t = s.respond (errResponse e) := by
  rcases execCfg_cases v n x r m s with ⟨mode, hv, he⟩ | ⟨e, -, he⟩ <;> rw [exec, he] at h <;> cases h
  · exact .inl ⟨mode, hv, rfl⟩
  · exact .inr ⟨e, rfl⟩

/-- No command writes the parameters or the pending inputs (logs 1, 4). -/
theorem exec_frame {i : Instr} {s t : State} (h : exec i s = .next t) :
    t.params = s.params ∧ t.inputs = s.inputs := by
  by_cases hc : ∃ v n x r m, i = .cfg v n x r m
  · obtain ⟨v, n, x, r, m, rfl⟩ := hc
    rcases exec_cfg_effect h with ⟨mode, -, rfl⟩ | ⟨e, rfl⟩ <;> exact ⟨rfl, rfl⟩
  · push Not at hc
    obtain ⟨v, p, -, -, rfl⟩ := exec_effect hc h
    exact ⟨rfl, rfl⟩

/-- Where no direction is applied and the command is not CRST, `value` stays. -/
theorem ValueAfter.eq_value {i : Instr} {s : State} {v : Int} (h : ValueAfter i s v) (hi : i ≠ .crst)
    (hd : appliedDir i s.state = .none) : v = s.value := by
  rcases h with ⟨-, hv⟩ | ⟨k, hk, -⟩
  · simpa [hi] using hv
  · simp [hd] at hk

/-- Settles O51: the write column of R10 is read off what a command does. -/
theorem eachRegisterHasItsWriters : Obligations.EachRegisterHasItsWriters := by
  intro i s t h
  refine ⟨(exec_frame h).1, (exec_frame h).2, ?_⟩
  by_cases hcfg : ∃ v n x r m, i = .cfg v n x r m
  · obtain ⟨v, n, x, r, m, rfl⟩ := hcfg
    refine ⟨fun hc => absurd rfl (hc v n x r m), fun hc => absurd rfl (hc v n x r m), fun hsome _ _ _ => ?_⟩
    have hv : v = none := Option.eq_none_iff_forall_ne_some.2 fun w hw => hsome w n x r m (by rw [hw])
    rcases exec_cfg_effect h with ⟨mode, -, rfl⟩ | ⟨e, rfl⟩
    · simp [merge, hv]
    · rfl
  · push Not at hcfg
    obtain ⟨v, p, hv, -, rfl⟩ := exec_effect hcfg h
    refine ⟨fun _ => ⟨rfl, rfl, rfl, rfl⟩, fun _ hdrst hstep => ?_, fun _ hcrst happly hstep => ?_⟩
    · show decoderAfter i s.state = s.state
      cases i with
      | step a b => exact absurd rfl (hstep a b)
      | drst => exact absurd rfl hdrst
      | _ => rfl
    · refine hv.eq_value hcrst ?_
      cases i with
      | step a b => exact hstep a b rfl
      | apply d => exact not_not.1 fun hd => happly d hd rfl
      | _ => rfl

end Sys2Proof.Machine
end

section
/-!
PROOF. Proofs/Invariant.lean: the invariants of the registers (10_state.md R17, R18, 41_ranged_counter.md R97).
-/

namespace Sys2Proof

/-- R97: what a width holds is an interval. -/
theorem Width.represents_of_mem {w : Width} {lo hi x : Int} (hlo : w.represents lo = true)
    (hhi : w.represents hi = true) (hx : lo ≤ x ∧ x ≤ hi) : w.represents x = true := by
  cases w with
  | inf => rfl
  | bits n =>
    simp only [Width.represents, decide_eq_true_eq] at *
    omega

/-- R49, R100: an operand that fits, or the register kept in its place, is a W-bit word. -/
theorem represents_getD {w : Width} {o : Option Int} {y : Int} (ho : operandFits w o = true)
    (hy : w.represents y = true) : w.represents (o.getD y) = true := by
  cases o with
  | none => exact hy
  | some x => exact ho

end Sys2Proof

namespace Sys2Proof.Machine

/-- R93, R94: in Wrap and Bounded mode the policy stores a value of the range. -/
theorem policyValue_mem {s : State} {k v : Int} (hm : s.mode ≠ .unbounded) (h : policyValue s k = .ok v) :
    s.minVal ≤ v ∧ v ≤ s.maxVal := by
  unfold policyValue at h
  split at h
  next hu => exact absurd hu hm
  next => exact wrapValue_mem h
  next => exact boundedValue_mem h

/-- R97: in Unbounded mode the policy stores only what the width holds. -/
theorem unboundedValue_represents {s : State} {k v : Int} (h : unboundedValue s k = .ok v) :
    s.params.width.represents v = true := by
  unfold unboundedValue at h
  split at h
  next hr => cases h; exact hr
  next => cases h

/-- R97: on W-bit bounds the policy of every mode stores a W-bit word. -/
theorem policyValue_represents {s : State} {k v : Int} (hlo : s.params.width.represents s.minVal = true)
    (hhi : s.params.width.represents s.maxVal = true) (h : policyValue s k = .ok v) :
    s.params.width.represents v = true := by
  by_cases hm : s.mode = .unbounded
  · rw [policyValue, hm] at h
    exact unboundedValue_represents h
  · exact Width.represents_of_mem hlo hhi (policyValue_mem hm h)

/-- R97: in a valid state a command other than CFG leaves a W-bit word in `value`. -/
theorem ValueAfter.represents {i : Instr} {s : State} {v : Int} (hs : ValidState s) (h : ValueAfter i s v) :
    s.params.width.represents v = true := by
  obtain ⟨-, hval, hlo, hhi, -⟩ := hs
  rcases h with ⟨-, rfl⟩ | ⟨k, -, hv⟩
  · split
    · exact Width.represents_zero _
    · exact hval
  · exact policyValue_represents hlo hhi hv

/-- R18, R97: a command whose operands fit the ports keeps the invariants. -/
theorem exec_keeps_validState {i : Instr} {s t : State} (hs : ValidState s)
    (hw : i.wellFormed s.params.width = true) (h : exec i s = .next t) : ValidState t := by
  have ⟨hp, hval, hlo, hhi, hb⟩ := hs
  by_cases hc : ∃ v n x r m, i = .cfg v n x r m
  · obtain ⟨v, n, x, r, m, rfl⟩ := hc
    simp only [Instr.wellFormed, Bool.and_eq_true] at hw
    obtain ⟨⟨hv, hn⟩, hx⟩ := hw
    rcases exec_cfg_effect h with ⟨mode, hmode, rfl⟩ | ⟨e, rfl⟩
    · obtain ⟨-, hle⟩ := (validate_eq_ok_iff _ mode).1 hmode
      exact ⟨hp, represents_getD hv hval, represents_getD hn hlo, represents_getD hx hhi, hle⟩
    · exact hs
  · push Not at hc
    obtain ⟨v, p, hv, -, rfl⟩ := exec_effect hc h
    have hfits := hv.represents hs
    exact ⟨hp, hfits, hlo, hhi, hb⟩

/-- Settles O52: a step performs a command whose operands fit, rejects one, or loads the valid parameters. -/
theorem everyStepKeepsTheInvariant : Obligations.EveryStepKeepsTheInvariant := by
  intro s t hs h
  rcases step_cases s with ⟨-, he⟩ | ⟨rest, -, he⟩ | ⟨c, rest, e, -, -, he⟩ | ⟨c, rest, i, -, -, hw, he⟩ |
    ⟨c, rest, i, -, -, -, he⟩ <;> rw [he] at h
  · exact exec_keeps_validState hs rfl h
  · cases h
    obtain ⟨hwidth, hval, hlo, hhi, hb⟩ := hs.1
    exact ⟨hs.1, hval, hlo, hhi, hb⟩
  · cases h; exact hs
  · exact exec_keeps_validState (s := s.setInputs rest) hs hw h
  · cases h

/-- R17: in Wrap and Bounded mode a command that applies a direction leaves `value` in the range. -/
theorem exec_inRange {i : Instr} {s t : State} (hm : s.mode ≠ .unbounded) (hd : appliedDir i s.state ≠ .none)
    (h : exec i s = .next t) : InRange t := by
  have hc : ∀ v n x r m, i ≠ .cfg v n x r m := by rintro v n x r m rfl; exact hd rfl
  obtain ⟨v, p, ⟨hnone, -⟩ | ⟨k, -, hv⟩, -, rfl⟩ := exec_effect hc h
  · exact absurd hnone hd
  · have hmem := policyValue_mem hm hv
    exact hmem

/-- Settles O42: the direction a STEP answers with is the one it applied. -/
theorem rangeHoldsAfterAnApply : Obligations.RangeHoldsAfterAnApply := by
  intro s t hm
  constructor
  · intro d hd h
    exact exec_inRange (i := .apply d) hm hd h
  · intro a b r h hr hdir
    obtain ⟨v, p, -, hp, rfl⟩ := exec_effect (by simp) h
    obtain rfl : p = r := by simpa using hr
    exact exec_inRange (i := .step a b) hm (by rwa [hp] at hdir) h

end Sys2Proof.Machine
end

section
/-!
PROOF. Proofs/Independence.lean: what a step and a run do not depend on, the earlier response (10_state.md R23) and,
for the decoder, the counter (R10, R21); and the codes the ports show (R12, R16).
-/

namespace Sys2Proof.Machine

/-- C.APPLY neither reads nor writes the response. -/
theorem cApply_resp (d : Direction) (s : State) (r : Option Response) :
    cApply d { s with resp := r } = (cApply d s).map fun t => { t with resp := r } := by
  have hp : ∀ k, policyValue { s with resp := r } k = policyValue s k := fun _ => rfl
  simp only [cApply, hp]
  cases increment d s.rev with
  | none => rfl
  | some k => cases hk : policyValue s k <;> simp only [hk] <;> rfl

/-- An answer replaces the response that stood before. -/
theorem answer_map_resp (o : Except Refusal State) (r : Option Response) (p : Response) :
    answer (o.map fun t => { t with resp := r }) p = answer o p := by
  cases o <;> rfl

/-- R23: no command depends on the response of an earlier one. -/
theorem exec_resp (i : Instr) (s : State) (r : Option Response) : exec i { s with resp := r } = exec i s := by
  cases i with
  | nop => rfl
  | read => rfl
  | drst => rfl
  | crst => rfl
  | step a b =>
    have h := cApply_resp (qStep a b s).1 (qStep a b s).2 r
    exact (congrArg (answer · (dirResponse (qStep a b s).1)) h).trans (answer_map_resp _ _ _)
  | apply d => rw [exec, exec, execApply, execApply, cApply_resp, answer_map_resp]
  | cfg v n x c m =>
    have hv : validate (merge v n x c m { s with resp := r }) = validate (merge v n x c m s) := rfl
    simp only [exec, execCfg, hv]
    cases validate (merge v n x c m s) <;> rfl

/-- R23: nothing that is presented is performed with regard to an earlier response. -/
theorem runInput_resp (j : Input) (s : State) (r : Option Response) :
    runInput j { s with resp := r } = runInput j s := by
  cases j with
  | reset => rfl
  | command c =>
    simp only [runInput, runCommand, exec_resp]
    cases decode c <;> rfl

/-- A step in which nothing is presented is a NOP (log 4). -/
theorem step_of_idle {s : State} (hin : s.inputs = []) : step s = exec .nop s := by
  simp only [step, runNext, hin]

/-- A step takes the oldest input presented and performs it (R4, log 4). -/
theorem step_of_presented {s : State} {j : Input} {rest : List Input} (hin : s.inputs = j :: rest) :
    step s = runInput j (s.setInputs rest) := by
  simp only [step, runNext, hin]

/-- Settles O15: every input is performed, and an idle step answered, with no regard to the earlier response. -/
theorem responsesAreTransient : Obligations.ResponsesAreTransient := by
  intro s r
  by_cases hin : s.inputs = []
  · rw [step_of_idle hin, step_of_idle (s := { s with resp := r }) hin, exec_resp]
  · obtain ⟨j, rest, hin⟩ := List.exists_cons_of_ne_nil hin
    rw [step_of_presented hin, step_of_presented (s := { s with resp := r }) hin]
    exact runInput_resp j (s.setInputs rest) r

/-- R46: a command other than CFG decodes back from its word. -/
theorem decode_encode_of_not_cfg {i : Instr} (hc : ∀ v n x r m, i ≠ .cfg v n x r m) : decode (encode i) = .ok i := by
  cases i with
  | step a b => cases a <;> cases b <;> rfl
  | apply d => cases d <;> rfl
  | cfg v n x r m => exact absurd rfl (hc v n x r m)
  | _ => rfl

/-- R123: an answered step on a presented command other than CFG is that command's meaning. -/
theorem exec_of_step_presented {i : Instr} {s t : State} {rest : List Input} (hc : ∀ v n x r m, i ≠ .cfg v n x r m)
    (hin : s.inputs = .command (encode i) :: rest) (h : step s = .next t) : exec i (s.setInputs rest) = .next t := by
  simp only [step_of_presented hin, runInput, runCommand, decode_encode_of_not_cfg hc] at h
  split at h
  · exact h
  · cases h

/-- R10, R21: what an answered step on a presented command other than CFG does to the decoder depends on the
decoder alone. -/
theorem step_presented_decoder {i : Instr} {s t : State} {rest : List Input} (hc : ∀ v n x r m, i ≠ .cfg v n x r m)
    (hin : s.inputs = .command (encode i) :: rest) (h : step s = .next t) :
    t.inputs = rest ∧ t.state = decoderAfter i s.state ∧ t.resp.map Response.dir = some (answeredDir i s.state) := by
  obtain ⟨v, p, -, hp, rfl⟩ := exec_effect hc (exec_of_step_presented hc hin h)
  exact ⟨rfl, rfl, congrArg some hp⟩

/-- A run of `k + 1` steps that completes is an answered step and a run of `k` that completes. -/
theorem runFor_succ_eq_next {k : Nat} {s t : State} (h : runFor (k + 1) s = .next t) :
    ∃ u, step s = .next u ∧ runFor k u = .next t := by
  rw [runFor_succ] at h
  cases hs : step s with
  | next u => exact ⟨u, rfl, by simpa only [hs] using h⟩
  | fault f => cases f
  | refused r => simp [hs] at h

/-- Two completing runs of the same commands, none of them CFG, keep the agreement of their decoders; their last
directions agree once there was a command, or where they agreed before. -/
theorem runFor_presented_decoder_agree (is : List Instr) (hc : ∀ i ∈ is, ∀ v n x r m, i ≠ .cfg v n x r m)
    {s u s' u' : State} (hs : s.inputs = presented is) (hu : u.inputs = presented is) (hq : s.state = u.state)
    (hs' : runFor is.length s = .next s') (hu' : runFor is.length u = .next u') :
    s'.state = u'.state ∧ (is ≠ [] ∨ s.resp.map Response.dir = u.resp.map Response.dir →
      s'.resp.map Response.dir = u'.resp.map Response.dir) := by
  induction is generalizing s u with
  | nil =>
    cases hs'
    cases hu'
    exact ⟨hq, fun hd => hd.resolve_left fun hne => hne rfl⟩
  | cons i is ih =>
    have hi := hc i List.mem_cons_self
    obtain ⟨s₁, hs₁, hsrun⟩ := runFor_succ_eq_next hs'
    obtain ⟨u₁, hu₁, hurun⟩ := runFor_succ_eq_next hu'
    obtain ⟨hsin, hsq, hsd⟩ := step_presented_decoder hi hs hs₁
    obtain ⟨huin, huq, hud⟩ := step_presented_decoder hi hu hu₁
    have hstate : s₁.state = u₁.state := by rw [hsq, huq, hq]
    have hdir : s₁.resp.map Response.dir = u₁.resp.map Response.dir := by rw [hsd, hud, hq]
    obtain ⟨hq', hd'⟩ := ih (fun j hj => hc j (List.mem_cons_of_mem i hj)) hsin huin hstate hsrun hurun
    exact ⟨hq', fun _ => hd' (.inr hdir)⟩

/-- Settles O59, by induction on the commands. -/
theorem decoderIgnoresTheCounterWithoutCfg : Obligations.DecoderIgnoresTheCounterWithoutCfg := by
  intro is s u s' u' hc hne hs hu hq hs' hu'
  obtain ⟨hstate, hdir⟩ := runFor_presented_decoder_agree is hc hs hu hq hs' hu'
  exact ⟨hstate, hdir (.inl hne)⟩

/-- Settles O60: `q_state` is the code of `state`, and every pattern is the code of the state it stands for. -/
theorem portsShowTheNumberedCodes : Obligations.PortsShowTheNumberedCodes := by
  refine ⟨fun s => ?_, fun c => ⟨State.reset.setState (QState.ofCode c), QState.code_ofCode c⟩, by decide, by decide,
    by decide⟩
  unfold State.qState
  cases s.state <;> decide

end Sys2Proof.Machine
end

section
/-!
PROOF. Proofs/Rom.lean: the linear address of the transition-table ROM (20_memory.md R31).
-/

namespace Sys2Proof.Machine

/-- R31: appending the code to the state's code is `4*state + code`. -/
theorem romAddr_toNat (q : QState) (c : Code) : (romAddr q c).toNat = 4 * q.code.toNat + c.toNat := by
  rw [romAddr, BitVec.toNat_append, ← Nat.shiftLeft_add_eq_or_of_lt c.isLt, Nat.shiftLeft_eq, Nat.mul_comm]

/-- R31: an address is that of the state in its upper three bits and the code in its lower two. -/
theorem romAddr_of_fields (a : RomAddr) : romAddr (QState.ofCode (a.extractLsb' 2 3)) (a.extractLsb' 0 2) = a := by
  rw [romAddr, QState.code_ofCode]
  exact BitVec.extractLsb'_append_extractLsb'

/-- Settles O20: the address is computed by `romAddr_toNat` and taken apart into its fields by
`romAddr_of_fields`; `table` is by definition the read at it. -/
theorem romAddressing : Obligations.RomAddressing :=
  ⟨fun q c => ⟨romAddr_toNat q c, rfl⟩, fun a => ⟨_, _, (romAddr_of_fields a).symm⟩⟩

end Sys2Proof.Machine
end

section
/-!
PROOF. Proofs/Encoding.lean: what a presentation decodes to, one operation code after the other, and the words that
decode to no command (30_encoding.md R46, R47, R49, R52).
-/

namespace Sys2Proof

/-- Two words laid side by side are known from the two. -/
theorem append_eq_append_iff {n k : Nat} {x a : BitVec n} {y b : BitVec k} : x ++ y = a ++ b ↔ x = a ∧ y = b := by
  constructor
  · intro h
    have hl := congrArg (BitVec.extractLsb' k n) h
    have hr := congrArg (BitVec.extractLsb' 0 k) h
    rw [BitVec.extractLsb'_append_eq_left, BitVec.extractLsb'_append_eq_left] at hl
    rw [BitVec.extractLsb'_append_eq_right, BitVec.extractLsb'_append_eq_right] at hr
    exact ⟨hl, hr⟩
  · rintro ⟨rfl, rfl⟩
    rfl

/-- R45: bits 7:2 are the operation code and bits 4:2. -/
theorem Command.op_append_upper (c : Command) : c.op ++ c.upper = c.cw.extractLsb' 2 6 :=
  BitVec.extractLsb'_append_extractLsb'_eq_extractLsb' rfl

/-- R45: a word is its three fields side by side. -/
theorem Command.fields_append (c : Command) : c.op ++ c.upper ++ c.lower = c.cw := by
  rw [c.op_append_upper]
  exact BitVec.extractLsb'_append_extractLsb' (w := 6) (len := 2)

/-- R47: the six upper bits of a STEP. -/
theorem Command.upperBits_eq_step_iff (c : Command) :
    c.cw.extractLsb' 2 6 = 0b001000#6 ↔ c.op = 0b001#3 ∧ c.upper = 0#3 := by
  rw [← c.op_append_upper]
  exact append_eq_append_iff (a := 0b001#3) (b := 0#3)

/-- R48: the word of APPLY with the code that is no direction. -/
theorem Command.cw_eq_apply_direction11_iff (c : Command) :
    c.cw = 0x43#8 ↔ c.op = 0b010#3 ∧ c.upper = 0#3 ∧ c.lower = 0b11#2 := by
  rw [← and_assoc, ← append_eq_append_iff, ← append_eq_append_iff, c.fields_append]
  rfl

/-- The operation code of a word is what it was laid out with (R45). -/
@[simp] theorem Command.ofWord_opWord_op (o : BitVec 3) (f : BitVec 5) : (Command.ofWord (opWord o f)).op = o :=
  BitVec.extractLsb'_append_eq_left

/-- R49: the operation code of CFG, whatever its arguments. -/
@[simp] theorem encode_cfg_op (v n x : Option Int) (r : Option Bool) (m : Option (BitVec 2)) :
    (encode (.cfg v n x r m)).op = 0b110#3 :=
  BitVec.extractLsb'_append_eq_left

/-- What the operand of APPLY, bits 1:0, decodes to (R48). -/
def decodeDirection (l : BitVec 2) : Except Reserved Instr :=
  match Direction.ofCode l with
  | some d => .ok (.apply d)
  | none => .error .direction11

/-- R48: everything `decodeDirection` can do with a direction. -/
theorem decodeDirection_eq_ok_iff (l : BitVec 2) (i : Instr) :
    decodeDirection l = .ok i ↔ ∃ d, Direction.ofCode l = some d ∧ i = .apply d := by
  unfold decodeDirection
  cases Direction.ofCode l <;> simp [eq_comm]

/-- R48, R52: APPLY reserves the code 11. -/
theorem decodeDirection_eq_error_iff (l : BitVec 2) : (∃ e, decodeDirection l = .error e) ↔ l = 0b11#2 := by
  rw [← Direction.ofCode_eq_none_iff, decodeDirection]
  cases Direction.ofCode l <;> simp

/-- R47: the operation code 001 is STEP, with bits 1 and 0. -/
theorem decode_of_op_step {c : Command} (h : c.op = 0b001#3) :
    decode c = decodeLower c (.ok (.step (c.cw.getLsbD 1) (c.cw.getLsbD 0))) := by
  rw [decode, h]; rfl

/-- R48: the operation code 010 is APPLY, with the direction in bits 1:0. -/
theorem decode_of_op_apply {c : Command} (h : c.op = 0b010#3) :
    decode c = decodeLower c (decodeDirection c.lower) := by
  rw [decode, h]; rfl

/-- R49: the operation code 110 is CFG, whatever the rest of the word. -/
theorem decode_of_op_cfg {c : Command} (h : c.op = 0b110#3) :
    decode c = .ok (.cfg (supplied (c.cw.getLsbD 4) c.cfgValue) (supplied (c.cw.getLsbD 3) c.cfgMin)
      (supplied (c.cw.getLsbD 2) c.cfgMax) (supplied (c.cw.getLsbD 1) c.cfgReverse)
      (supplied (c.cw.getLsbD 0) c.cfgMode)) := by
  rw [decode, h]; rfl

/-- R52: the operation code 111 is reserved. -/
theorem decode_of_op_reserved {c : Command} (h : c.op = 0b111#3) : decode c = .error .opcode111 := by
  rw [decode, h]; rfl

/-- R45, R46: everything `decode` can do, one format after the other: N, S, D, C and the reserved code. -/
theorem decode_cases (c : Command) :
    (∃ i, (c.op = 0b000#3 ∧ i = .nop ∨ c.op = 0b011#3 ∧ i = .read ∨ c.op = 0b100#3 ∧ i = .drst ∨
      c.op = 0b101#3 ∧ i = .crst) ∧ decode c = decodeNoOperand c i) ∨
    (c.op = 0b001#3 ∧ decode c = decodeLower c (.ok (.step (c.cw.getLsbD 1) (c.cw.getLsbD 0)))) ∨
    (c.op = 0b010#3 ∧ decode c = decodeLower c (decodeDirection c.lower)) ∨
    (c.op = 0b110#3 ∧ ∃ v n x r m, decode c = .ok (.cfg v n x r m)) ∨
    (c.op = 0b111#3 ∧ decode c = .error .opcode111) := by
  have hop : ∀ o : BitVec 3, (o = 0b000#3 ∨ o = 0b011#3 ∨ o = 0b100#3 ∨ o = 0b101#3) ∨ o = 0b001#3 ∨ o = 0b010#3 ∨
      o = 0b110#3 ∨ o = 0b111#3 := by decide
  rcases hop c.op with hn | hs | hd | hc | hr
  · left
    rcases hn with h | h | h | h
    · exact ⟨.nop, by simp [h], by rw [decode, h]; rfl⟩
    · exact ⟨.read, by simp [h], by rw [decode, h]; rfl⟩
    · exact ⟨.drst, by simp [h], by rw [decode, h]; rfl⟩
    · exact ⟨.crst, by simp [h], by rw [decode, h]; rfl⟩
  · exact .inr (.inl ⟨hs, decode_of_op_step hs⟩)
  · exact .inr (.inr (.inl ⟨hd, decode_of_op_apply hd⟩))
  · exact .inr (.inr (.inr (.inl ⟨hc, _, _, _, _, _, decode_of_op_cfg hc⟩)))
  · exact .inr (.inr (.inr (.inr ⟨hr, decode_of_op_reserved hr⟩)))

/-- R46: a word that decodes has the operation code of its command. -/
theorem op_eq_of_decode {c : Command} {i : Instr} (h : decode c = .ok i) : c.op = (encode i).op := by
  rcases decode_cases c with ⟨j, hj, hd⟩ | ⟨hop, hd⟩ | ⟨hop, hd⟩ | ⟨hop, v, n, x, r, m, hd⟩ | ⟨-, hd⟩ <;> rw [hd] at h
  · obtain ⟨-, -, rfl⟩ := (decodeNoOperand_eq_ok_iff c j i).1 h
    rcases hj with ⟨hop, rfl⟩ | ⟨hop, rfl⟩ | ⟨hop, rfl⟩ | ⟨hop, rfl⟩ <;> simp [hop, encode]
  · obtain ⟨-, ⟨⟩⟩ := (decodeLower_eq_ok_iff c _ i).1 h
    simp [hop, encode]
  · obtain ⟨-, hl⟩ := (decodeLower_eq_ok_iff c _ i).1 h
    obtain ⟨d, -, rfl⟩ := (decodeDirection_eq_ok_iff _ i).1 hl
    simp [hop, encode]
  · cases h
    rw [hop, encode_cfg_op]
  · cases h

/-- R52: formats S and D reserve the words with a bit of 4:2 set, and what their operand reserves. -/
theorem decodeLower_eq_error_iff (c : Command) (o : Except Reserved Instr) :
    (∃ e, decodeLower c o = .error e) ↔ c.upper ≠ 0#3 ∨ ∃ e, o = .error e := by
  unfold decodeLower; split <;> simp_all

/-- R52: format N reserves the words with a bit of 4:0 set. -/
theorem decodeNoOperand_eq_error_iff (c : Command) (i : Instr) :
    (∃ e, decodeNoOperand c i = .error e) ↔ c.upper ≠ 0#3 ∨ c.lower ≠ 0#2 := by
  rw [decodeNoOperand, decodeLower_eq_error_iff]
  split <;> simp_all

/-- R45, R49: the operand ports matter to CFG alone. -/
theorem decode_ofWord_of_not_cfg {c : Command} (h : c.op ≠ 0b110#3) : decode (.ofWord c.cw) = decode c := by
  have hw : (Command.ofWord c.cw).op ≠ 0b110#3 := h
  simp only [decode, if_neg h, if_neg hw]
  rfl

/-- R46: the mnemonic is known from the word, whatever the operand ports carry. -/
theorem decode_mnemonic_ofWord (c : Command) :
    (decode (.ofWord c.cw)).toOption.map Instr.mnemonic = (decode c).toOption.map Instr.mnemonic := by
  by_cases h : c.op = 0b110#3
  · rw [decode_of_op_cfg h, decode_of_op_cfg (c := .ofWord c.cw) h]
    rfl
  · rw [decode_ofWord_of_not_cfg h]

/-- Settles O2: the operand ports do not matter to the mnemonic, and the decoder and the table name the same command
for each of the 256 words. -/
theorem decodeFollowsCommandTable : Obligations.DecodeFollowsCommandTable := by
  have hword : ∀ cw : CmdWord,
      (decode (.ofWord cw)).toOption.map Instr.mnemonic = (tableRow cw).map CommandRow.mnemonic := by decide
  intro c
  rw [← decode_mnemonic_ofWord, hword]

/-- R52 in the three fields of the word: what each format reserves. -/
theorem decode_eq_error_iff (c : Command) :
    (∃ e, decode c = .error e) ↔
      c.op = 0b111#3 ∨ (c.op ≠ 0b110#3 ∧ c.op ≠ 0b111#3 ∧ c.upper ≠ 0#3) ∨
      ((c.op = 0b000#3 ∨ c.op = 0b011#3 ∨ c.op = 0b100#3 ∨ c.op = 0b101#3) ∧ c.lower ≠ 0#2) ∨
      (c.op = 0b010#3 ∧ c.upper = 0#3 ∧ c.lower = 0b11#2) := by
  rcases decode_cases c with ⟨i, hi, hd⟩ | ⟨hop, hd⟩ | ⟨hop, hd⟩ | ⟨hop, v, n, x, r, m, hd⟩ | ⟨hop, hd⟩ <;> rw [hd]
  · rw [decodeNoOperand_eq_error_iff]
    rcases hi with ⟨hop, -⟩ | ⟨hop, -⟩ | ⟨hop, -⟩ | ⟨hop, -⟩ <;> simp [hop]
  · simp [decodeLower_eq_error_iff, hop]
  · rw [decodeLower_eq_error_iff, decodeDirection_eq_error_iff]
    by_cases hu : c.upper = 0#3 <;> simp [hop, hu]
  · simp [hop]
  · simp [hop]

/-- Settles O4: the classes of `decode_eq_error_iff`, the last of which is the word 0x43. -/
theorem reservedWordsAreTheListedClasses : Obligations.ReservedWordsAreTheListedClasses := by
  intro c
  rw [c.cw_eq_apply_direction11_iff]
  exact decode_eq_error_iff c

/-- R47: a presentation is a STEP exactly when its operation code is 001 and bits 4:2 are 0. -/
theorem decode_eq_step_iff (c : Command) (a b : Bool) :
    decode c = .ok (.step a b) ↔
      (c.op = 0b001#3 ∧ c.upper = 0#3) ∧ a = c.cw.getLsbD 1 ∧ b = c.cw.getLsbD 0 := by
  by_cases hop : c.op = 0b001#3
  · rw [decode_of_op_step hop, decodeLower_eq_ok_iff]
    simp [hop, eq_comm]
  · have hne : decode c ≠ .ok (.step a b) := fun h => hop (by simpa [encode] using op_eq_of_decode h)
    simp [hop, hne]

/-- R47: the packed sample code is the number `(a << 1) | b`. -/
theorem sampleCode_toNat (a b : Bool) : (Machine.sampleCode a b).toNat = 2 * a.toNat + b.toNat := by
  revert a b; decide

/-- Settles O5: the six upper bits are those of `decode_eq_step_iff`, and the two lower ones are the sample code. -/
theorem stepOperandIsTheLowBits : Obligations.StepOperandIsTheLowBits := by
  intro c a b
  rw [decode_eq_step_iff, ← c.upperBits_eq_step_iff]
  refine ⟨Iff.rfl, ?_⟩
  rintro ⟨-, rfl, rfl⟩
  refine ⟨?_, sampleCode_toNat _ _⟩
  simpa using Machine.sampleCode_bits (c.cw.extractLsb' 0 2)

/-- Settles O6: the operation code 110 decodes to CFG, no other does, and `supplied` is the choice by a
write-enable. -/
theorem cfgArgumentsFollowWriteEnables : Obligations.CfgArgumentsFollowWriteEnables := by
  intro c v n x r m
  by_cases hop : c.op = 0b110#3
  · rw [decode_of_op_cfg hop, Except.ok.injEq, Instr.cfg.injEq]
    simp only [eq_comm (b := v), eq_comm (b := n), eq_comm (b := x), eq_comm (b := r), eq_comm (b := m)]
    exact (and_iff_right hop).symm
  · exact iff_of_false (fun h => hop ((op_eq_of_decode h).trans (encode_cfg_op v n x r m))) fun ⟨h, _⟩ => hop h

/-- Settles O1: the ports do not matter to the ten words that are no CFG, and the two that are CFG are supplied what
`decode_of_op_cfg` says. -/
theorem printedWordsDecode : Obligations.PrintedWordsDecode := by
  intro v n x r m
  have hword : ∀ {w : CmdWord} {o : Except Reserved Instr},
      w.extractLsb' 5 3 ≠ 0b110#3 ∧ decode (.ofWord w) = o → decode ⟨w, v, n, x, r, m⟩ = o := by
    rintro w o ⟨hop, hw⟩
    rw [← hw, ← decode_ofWord_of_not_cfg (c := ⟨w, v, n, x, r, m⟩) hop]
  have hcfg : ∀ {w : CmdWord}, w.extractLsb' 5 3 = 0b110#3 → decode ⟨w, v, n, x, r, m⟩ =
      .ok (.cfg (supplied (w.getLsbD 4) v) (supplied (w.getLsbD 3) n) (supplied (w.getLsbD 2) x)
        (supplied (w.getLsbD 1) r) (supplied (w.getLsbD 0) m)) :=
    fun {w} hop => decode_of_op_cfg (c := ⟨w, v, n, x, r, m⟩) hop
  exact ⟨hword (by decide), hword (by decide), hword (by decide), hword (by decide), hword (by decide),
    hword (by decide), hword (by decide), hword (by decide), hcfg (w := 0b11000110#8) (by decide),
    hcfg (w := 0b11011001#8) (by decide), hword (by decide), hword (by decide)⟩

/-- Settles O3: by running the decoder on each word. -/
theorem fortyThreeWordsAreCommands : Obligations.FortyThreeWordsAreCommands := by
  unfold Obligations.FortyThreeWordsAreCommands
  decide

end Sys2Proof
end

section
/-!
PROOF. Proofs/Table.lean: the transition table, entry by entry (40_decoder_fsm.md R66, R71 to R78, R80, R86), and its
mirror image (R88).
-/

namespace Sys2Proof.Machine

/-- R66, R74: the clockwise flag stands in one entry. -/
theorem qDir_eq_clockwise_iff (q : QState) (c : Code) : qDir q c = .clockwise ↔ q = .cw3 ∧ c = 0b11#2 := by
  revert c; cases q <;> decide

/-- R51: the direction reported is bits 5:4 of the entry. -/
theorem qDir_code (q : QState) (c : Code) : (qDir q c).code = (table q c).extractLsb' 4 2 := by
  revert c; cases q <;> decide

/-- R32: bit 3 of an entry is 0. -/
theorem table_bit3 (q : QState) (c : Code) : (table q c).getLsbD 3 = false := by
  revert c; cases q <;> decide

/-- R51: the next state is bits 2:0 of the entry. -/
theorem qNext_code (q : QState) (c : Code) : (qNext q c).code = (table q c).extractLsb' 0 3 := QState.code_ofCode _

/-- R88: the code sampled with the two channels exchanged. -/
def swapChannels (c : Code) : Code := sampleCode (c.getLsbD 0) (c.getLsbD 1)

theorem swapChannels_sampleCode (a b : Bool) : swapChannels (sampleCode a b) = sampleCode b a := by
  rw [swapChannels, sampleCode_bit0, sampleCode_bit1]

@[simp] theorem swapChannels_swapChannels (c : Code) : swapChannels (swapChannels c) = c := by revert c; decide

/-- R88: the mirrored state on the mirrored code goes to the mirrored next state. -/
theorem qNext_mirror (q : QState) (c : Code) : qNext q.mirror (swapChannels c) = (qNext q c).mirror := by
  revert c; cases q <;> decide

/-- R88: the mirrored state on the mirrored code reports the mirrored direction. -/
theorem qDir_mirror (q : QState) (c : Code) : qDir q.mirror (swapChannels c) = Direction.mirror (qDir q c) := by
  revert c; cases q <;> decide

/-- Settles O28: `qNext_mirror` and `qDir_mirror`, for the code of the two channels. -/
theorem tableIsMirrorSymmetric : Obligations.TableIsMirrorSymmetric := by
  intro q a b
  rw [← swapChannels_sampleCode a b]
  exact ⟨qNext_mirror q _, qDir_mirror q _⟩

theorem Direction.mirror_eq_clockwise_iff (d : Direction) :
    Direction.mirror d = .clockwise ↔ d = .counterClockwise := by
  cases d <;> decide

theorem QState.mirror_eq_iff (q r : QState) : q.mirror = r ↔ q = r.mirror := by
  constructor <;> rintro rfl <;> simp

theorem swapChannels_eq_iff (c d : Code) : swapChannels c = d ↔ c = swapChannels d := by
  constructor <;> rintro rfl <;> simp

/-- R66, R77: the counter-clockwise flag stands in the mirror image of the entry with the clockwise one. -/
theorem qDir_eq_counterClockwise_iff (q : QState) (c : Code) :
    qDir q c = .counterClockwise ↔ q = .ccw3 ∧ c = 0b11#2 := by
  rw [← Direction.mirror_eq_clockwise_iff, ← qDir_mirror, qDir_eq_clockwise_iff, QState.mirror_eq_iff,
    swapChannels_eq_iff]
  rfl

/-- R66: the decoder reports on the two flagged entries and nowhere else. -/
theorem qDir_ne_none_iff (q : QState) (c : Code) :
    qDir q c ≠ .none ↔ (q = .cw3 ∧ c = 0b11#2) ∨ (q = .ccw3 ∧ c = 0b11#2) := by
  rw [← qDir_eq_clockwise_iff, ← qDir_eq_counterClockwise_iff]
  cases qDir q c <;> simp

/-- R48: None is the direction whose code is 00. -/
theorem Direction.code_ne_zero_iff (d : Direction) : d.code ≠ 0#2 ↔ d ≠ .none := by cases d <;> decide

/-- R48: no direction has the code 11. -/
theorem Direction.code_ne_three (d : Direction) : d.code ≠ 0b11#2 := by cases d <;> decide

/-- Settles O19: bits 5:4 are the code of the reported direction, which `qDir_ne_none_iff` places. -/
theorem entryFlagsAreTheTwoOfTheSource : Obligations.EntryFlagsAreTheTwoOfTheSource := by
  refine ⟨by decide, by decide, fun q c => ?_, fun q c => ⟨?_, table_bit3 q c, qDir_code q c, qNext_code q c⟩⟩
  · rw [← qDir_code, Direction.code_ne_zero_iff, qDir_ne_none_iff]
  · rw [← qDir_code]
    exact Direction.code_ne_three _

/-- Settles O18: the rows by reading the table, the unflagged entries by `qDir_ne_none_iff`. -/
theorem transitionTableRows : Obligations.TransitionTableRows := by
  refine ⟨by decide, by decide, by decide, by decide, by decide, by decide, by decide, by decide, rfl, rfl,
    fun q c hcw hccw => ?_⟩
  by_contra hd
  exact ((qDir_ne_none_iff q c).1 hd).elim hcw hccw

/-- R80: the clockwise state that shows the code it was reached with; START for 11. -/
def cwShowing (c : Code) : QState :=
  if c = 0b10#2 then .cw1 else if c = 0b00#2 then .cw2 else if c = 0b01#2 then .cw3 else .start

/-- R80: the counter-clockwise state that shows the code, the mirror image. -/
def ccwShowing (c : Code) : QState := (cwShowing (swapChannels c)).mirror

/-- R80: a code leads to START or to one of the two states that show it. -/
theorem qNext_shows (q : QState) (c : Code) :
    qNext q c = .start ∨ qNext q c = cwShowing c ∨ qNext q c = ccwShowing c := by
  revert c; cases q <;> decide

/-- R116: a completing STEP puts the table's next state into `state`. -/
theorem exec_step_state {a b : Bool} {s t : State} (h : exec (.step a b) s = .next t) :
    t.state = qNext s.state (sampleCode a b) := by
  obtain ⟨u, -, rfl⟩ := (execStep_eq_next_iff a b s t).1 h
  rfl

/-- Settles O21: by `qNext_shows`, for each of the three states a code can lead to. -/
theorem stateTellsTheLastCode : Obligations.StateTellsTheLastCode := by
  intro a b s t h
  rw [exec_step_state h]
  rcases qNext_shows s.state (sampleCode a b) with hq | hq | hq <;> rw [hq] <;> generalize sampleCode a b = c
  · simp
  · revert c; decide
  · revert c; decide

end Sys2Proof.Machine
end

section
/-!
PROOF. Proofs/Reachable.lean: invariants along runs, and ILLEGAL, which no run reaches (40_decoder_fsm.md R81).
-/

namespace Sys2Proof.Machine

/-- What every step keeps, every run keeps. -/
theorem runFor_keeps {P : State → Prop} (hstep : ∀ s t, P s → step s = .next t → P t) {k : Nat} {s t : State}
    (hs : P s) (h : runFor k s = .next t) : P t := by
  induction k generalizing s with
  | zero => cases h; exact hs
  | succ k ih =>
    obtain ⟨u, hu, hrun⟩ := runFor_succ_eq_next h
    exact ih (hstep s u hs hu) hrun

/-- R81: no command leads to ILLEGAL from another state. -/
theorem exec_state_ne_illegal {i : Instr} {s t : State} (hs : s.state ≠ .illegal) (h : exec i s = .next t) :
    t.state ≠ .illegal := by
  rcases exec_state_cases h with hq | hq | ⟨c, hq⟩ <;> rw [hq]
  · exact hs
  · decide
  · exact entryNext_table_ne_illegal _ c

/-- R81: no step leads to ILLEGAL from another state, whatever is presented. -/
theorem step_state_ne_illegal {s t : State} (hs : s.state ≠ .illegal) (h : step s = .next t) :
    t.state ≠ .illegal := by
  rcases step_cases s with ⟨-, he⟩ | ⟨rest, -, he⟩ | ⟨c, rest, e, -, -, he⟩ | ⟨c, rest, i, -, -, -, he⟩ |
    ⟨c, rest, i, -, -, -, he⟩ <;> rw [he] at h
  · exact exec_state_ne_illegal hs h
  · cases h; simp
  · cases h; exact hs
  · exact exec_state_ne_illegal (s := s.setInputs rest) hs h
  · cases h

/-- Settles O30: reset gives START, and every step, hence every run, keeps off ILLEGAL. -/
theorem illegalIsNeverReached : Obligations.IllegalIsNeverReached := by
  have hreset : ∀ p : Params, (State.construct p).state ≠ .illegal := fun p => by simp [State.construct]
  refine ⟨hreset, fun s t => step_state_ne_illegal, fun p ins k t h => ?_⟩
  exact runFor_keeps (P := fun s => s.state ≠ .illegal) (fun s t => step_state_ne_illegal)
    (s := { State.construct p with inputs := ins }) (hreset p) h

end Sys2Proof.Machine
end

section
/-!
PROOF. Proofs/Silence.lean: runs of samples that report nothing, and the report that ends a clean detent
(40_decoder_fsm.md R82, R83, 42_top_commands.md R116).
-/

namespace Sys2Proof.Machine

/-- R83: a code other than 11 reports nothing, in any state. -/
theorem qDir_of_ne_rest (q : QState) {c : Code} (hc : c ≠ 0b11#2) : qDir q c = .none := by
  by_contra h
  rcases (qDir_ne_none_iff q c).1 h with ⟨-, hr⟩ | ⟨-, hr⟩ <;> exact hc hr

/-- R83: codes other than 11 report nothing, from any state. -/
theorem qDirs_of_no_rest {cs : List Code} (hcs : 0b11#2 ∉ cs) (q : QState) : ∀ d ∈ qDirs q cs, d = .none := by
  induction cs generalizing q with
  | nil => simp
  | cons c cs ih =>
    rw [List.mem_cons, not_or] at hcs
    obtain ⟨hc, hcs⟩ := hcs
    rw [qDirs_cons, List.forall_mem_cons]
    exact ⟨qDir_of_ne_rest q (Ne.symm hc), ih hcs _⟩

/-- R123: a presented sample is a STEP of the two levels its code carries. -/
theorem step_sample {s : State} {c : Code} {rest : List Input}
    (hin : s.inputs = .command (encode (stepOf c)) :: rest) : step s = exec (stepOf c) (s.setInputs rest) := by
  have hd : decode (encode (stepOf c)) = .ok (stepOf c) := decode_encode_of_not_cfg (by simp [stepOf])
  simp only [step_of_presented hin, runInput, runCommand, hd]
  rfl

/-- R116: the STEP that carries a code completes where C.APPLY of the table's direction does. -/
theorem exec_stepOf_eq_next {c : Code} {s u : State} (h : cApply (qDir s.state c) s = .ok u) :
    exec (stepOf c) s = .next ((u.setState (qNext s.state c)).respond (dirResponse (qDir s.state c))) := by
  refine (execStep_eq_next_iff _ _ s _).2 ⟨u, ?_, ?_⟩ <;> rw [sampleCode_bits]
  · exact h
  · rfl

/-- R116: a run of samples that report nothing completes, moves the decoder only and leaves what is presented
afterwards, where the run goes on. -/
theorem runFor_silent_samples {cs : List Code} {s : State} {rest : List Input} (k : Nat)
    (hin : s.inputs = samples cs ++ rest) (hd : ∀ d ∈ qDirs s.state cs, d = .none) :
    runFor (cs.length + k) s = runFor k { s with
      state := qRun s.state cs
      inputs := rest
      resp := if cs = [] then s.resp else some ⟨.none, .ok, 0⟩ } := by
  induction cs generalizing s with
  | nil => simp [show rest = s.inputs from hin.symm]
  | cons c cs ih =>
    rw [qDirs_cons, List.forall_mem_cons] at hd
    obtain ⟨hc, hd⟩ := hd
    have hstep : step s = .next { s with
        state := qNext s.state c, inputs := samples cs ++ rest, resp := some ⟨.none, .ok, 0⟩ } := by
      rw [step_sample hin, exec_stepOf_eq_next (u := s.setInputs (samples cs ++ rest))] <;>
        rw [State.setInputs_state, hc] <;> rfl
    rw [List.length_cons, Nat.add_right_comm, runFor_succ, hstep]
    refine (ih rfl hd).trans ?_
    simp

/-- Settles O25: the run of `runFor_silent_samples`, silent by `qDirs_of_no_rest`. -/
theorem noRestCodeNoReport : Obligations.NoRestCodeNoReport := by
  intro s cs hin hrest
  have hd := qDirs_of_no_rest hrest s.state
  refine ⟨_, runFor_silent_samples 0 (rest := []) (by simpa using hin) hd, fun hne => by simp [hne], hd⟩

/-- R116: where APPLY of the table's direction completes, so does the STEP, which writes `state` and the response
besides. -/
theorem exec_stepOf_of_apply {q : QState} {c : Code} {s t : State} (r : Option Response)
    (h : exec (.apply (qDir q c)) s = .next t) :
    exec (stepOf c) { s with state := q, resp := r } =
      .next { t with state := qNext q c, resp := some ⟨qDir q c, .ok, 0⟩ } := by
  obtain ⟨u, hu, rfl⟩ := (execApply_eq_next_iff _ s t).1 h
  have happly : cApply (qDir q c) (({ s with resp := r } : State).setState q) =
      .ok (({ u with resp := r } : State).setState q) := by
    rw [cApply_setState, cApply_resp, hu]; rfl
  exact exec_stepOf_eq_next (u := ({ u with resp := r } : State).setState q) happly

/-- R116: silent samples and one more do to the counter what one APPLY of the last direction does. -/
theorem runFor_silent_samples_then_step {cs : List Code} {c : Code} {d : Direction} {q : QState} {s t : State}
    {rest : List Input} (hin : s.inputs = samples cs ++ .command (encode (stepOf c)) :: rest)
    (hsilent : ∀ e ∈ qDirs s.state cs, e = .none) (hdir : qDir (qRun s.state cs) c = d)
    (hnext : qNext (qRun s.state cs) c = q) (h : exec (.apply d) { s with inputs := rest } = .next t) :
    runFor (cs.length + 1) s = .next { t with state := q, resp := some ⟨d, .ok, 0⟩ } := by
  subst hdir hnext
  rw [runFor_silent_samples 1 hin hsilent, runFor_succ, step_sample rfl]
  have hstep := exec_stepOf_of_apply (if cs = [] then s.resp else some ⟨.none, .ok, 0⟩) h
  simp only [State.setInputs, hstep, runFor_zero]

/-- R117: APPLY does not touch the decoder. -/
theorem exec_apply_state {d : Direction} {s t : State} (h : exec (.apply d) s = .next t) : t.state = s.state := by
  obtain ⟨v, p, -, -, rfl⟩ := exec_effect (by simp) h
  rfl

/-- Settles O27: three silent samples from START, and a fourth that reports and leads back to START. -/
theorem cleanDetentAppliesItsDirection : Obligations.CleanDetentAppliesItsDirection := by
  intro s t d rest hs hin h
  have ht : t.state = .start := (exec_apply_state h).trans hs
  have hrun : runFor 4 s = .next { t with state := .start, resp := some ⟨d, .ok, 0⟩ } := by
    rcases hin with ⟨rfl, hin⟩ | ⟨rfl, hin⟩
    · exact runFor_silent_samples_then_step (cs := [0b10#2, 0b00#2, 0b01#2]) (c := 0b11#2) hin
        (by rw [hs]; decide) (by rw [hs]; rfl) (by rw [hs]; rfl) h
    · exact runFor_silent_samples_then_step (cs := [0b01#2, 0b00#2, 0b10#2]) (c := 0b11#2) hin
        (by rw [hs]; decide) (by rw [hs]; rfl) (by rw [hs]; rfl) h
  rwa [← ht] at hrun

end Sys2Proof.Machine
end

section
/-!
PROOF. Proofs/ShortestReports.lean: how few codes can report (40_decoder_fsm.md R82).
-/

namespace Sys2Proof.Machine

/-- R82: up to this many codes, the sequences that report from a state are its `shortestReports`. -/
def fewestCodes : QState → Nat
  | .start | .illegal => 4
  | .cw1 | .ccw1 => 3
  | .cw2 | .ccw2 => 2
  | .cw3 | .ccw3 => 1

/-- R82: the sequences of `fewestCodes` that report; ILLEGAL, which first goes to START, has none. -/
def shortestReports : QState → List (List Code)
  | .start => [[0b10#2, 0b00#2, 0b01#2, 0b11#2], [0b01#2, 0b00#2, 0b10#2, 0b11#2]]
  | .cw1 => [[0b00#2, 0b01#2, 0b11#2]]
  | .cw2 => [[0b01#2, 0b11#2]]
  | .cw3 => [[0b11#2]]
  | .ccw1 => [[0b00#2, 0b10#2, 0b11#2]]
  | .ccw2 => [[0b10#2, 0b11#2]]
  | .ccw3 => [[0b11#2]]
  | .illegal => []

/-- R82: a code brings the decoder at most one step nearer to a report. -/
theorem fewestCodes_le_succ (q : QState) (c : Code) : fewestCodes q ≤ fewestCodes (qNext q c) + 1 := by
  revert c; cases q <;> decide

/-- R82: a code before a shortest sequence gives one, when it does bring the decoder nearer. -/
theorem cons_mem_shortestReports {q : QState} {c : Code} {cs : List Code} (hcs : cs ∈ shortestReports (qNext q c))
    (hlen : cs.length < fewestCodes q) : c :: cs ∈ shortestReports q := by
  have htable : ∀ c, ∀ cs ∈ shortestReports (qNext q c), cs.length < fewestCodes q →
      c :: cs ∈ shortestReports q := by
    cases q <;> decide
  exact htable c cs hcs hlen

/-- R82: a report at once needs one code, and that is 11. -/
theorem singleton_mem_shortestReports {q : QState} {c : Code} (h : qDir q c ≠ .none) :
    fewestCodes q = 1 ∧ [c] ∈ shortestReports q := by
  rcases (qDir_ne_none_iff q c).1 h with ⟨rfl, rfl⟩ | ⟨rfl, rfl⟩ <;> decide

/-- R82: no sequence of at most `fewestCodes` codes reports but the shortest ones. -/
theorem mem_shortestReports {q : QState} {cs : List Code} (hlen : cs.length ≤ fewestCodes q)
    (h : ∃ d ∈ qDirs q cs, d ≠ .none) : cs ∈ shortestReports q := by
  induction cs generalizing q with
  | nil => simp at h
  | cons c cs ih =>
    rw [List.length_cons] at hlen
    rw [qDirs_cons, List.exists_mem_cons_iff] at h
    rcases h with hc | hcs
    · obtain ⟨hone, hmem⟩ := singleton_mem_shortestReports hc
      have hnil : cs = [] := List.length_eq_zero_iff.1 (by omega)
      rwa [hnil]
    · have hnext := fewestCodes_le_succ q c
      exact cons_mem_shortestReports (ih (by omega) hcs) (by omega)

/-- Settles O26: the printed runs by running the table, the last clause by `mem_shortestReports` from START. -/
theorem cleanCyclesAreTheShortestReports : Obligations.CleanCyclesAreTheShortestReports := by
  refine ⟨by decide, by decide, by decide, fun cs hlen h => ?_⟩
  simpa [shortestReports] using mem_shortestReports (q := .start) hlen h

end Sys2Proof.Machine
end

section
/-!
PROOF. Proofs/Mirror.lean: the decoder's mirror image (40_decoder_fsm.md R88) over runs of codes and in the machine,
where the reversal flag makes up for it (30_encoding.md R50).
-/

namespace Sys2Proof.Machine

/-- R88 over runs: the mirrored decoder on the mirrored codes ends in the mirrored state. -/
theorem qRun_mirror (q : QState) (cs : List Code) : qRun q.mirror (cs.map swapChannels) = (qRun q cs).mirror := by
  induction cs generalizing q with
  | nil => rfl
  | cons c cs ih => rw [List.map_cons, qRun_cons, qRun_cons, qNext_mirror, ih]

@[simp] theorem State.mirror_state (s : State) : s.mirror.state = s.state.mirror := rfl

@[simp] theorem State.mirror_rev (s : State) : s.mirror.rev = !s.rev := rfl

/-- R50: the mirrored direction under the other reversal setting moves the counter alike. -/
theorem cApply_mirror (d : Direction) (s : State) :
    cApply (Direction.mirror d) s.mirror = (cApply d s).map State.mirror := by
  have hp : ∀ k, policyValue s.mirror k = policyValue s k := fun _ => rfl
  simp only [cApply, State.mirror_rev, increment_mirror, hp]
  cases increment d s.rev with
  | none => rfl
  | some k => cases hk : policyValue s k <;> simp only [hk] <;> rfl

/-- Settles O29: the table is mirrored by `qNext_mirror` and `qDir_mirror`, the counter by `cApply_mirror`. -/
theorem mirroredStepIsCompensatedByReversal : Obligations.MirroredStepIsCompensatedByReversal := by
  intro a b s t h
  obtain ⟨u, hu, rfl⟩ := (execStep_eq_next_iff a b s t).1 h
  have hdir : entryDir (table s.mirror.state (sampleCode b a)) =
      Direction.mirror (entryDir (table s.state (sampleCode a b))) := by
    rw [← swapChannels_sampleCode]; exact qDir_mirror s.state _
  have hnext : entryNext (table s.mirror.state (sampleCode b a)) =
      (entryNext (table s.state (sampleCode a b))).mirror := by
    rw [← swapChannels_sampleCode]; exact qNext_mirror s.state _
  refine (execStep_eq_next_iff b a s.mirror _).2 ⟨u.mirror, ?_, ?_⟩
  · rw [hdir, cApply_mirror, hu]; rfl
  · rw [hdir, hnext]; rfl

end Sys2Proof.Machine
end

section
/-!
PROOF. Proofs/FullWalk.lean: a report needs the full walk since START (40_decoder_fsm.md R87).
-/

namespace Sys2Proof.Machine

/-- R87: in the walk the decoder shows the latest code; a code that does not go on with the walk leads to START. -/
theorem qNext_cwShowing {c : Code} (hc : c ≠ 0b11#2) (d : Code) :
    qNext (cwShowing c) d = if d ≠ 0b11#2 ∧ SameOrNeighbour c d then cwShowing d else .start := by
  revert c d; decide

/-- R80: a clockwise state shows the code it was reached with. -/
theorem cwShowing_eq_cw3_iff (c : Code) : cwShowing c = .cw3 ↔ c = 0b01#2 := by revert c; decide

/-- R87: along a walk the decoder ends in the state that shows the last code. -/
theorem qRun_cwShowing_of_isChain {c : Code} {w : List Code} (hrest : 0b11#2 ∉ c :: w)
    (hw : List.IsChain SameOrNeighbour (c :: w)) :
    qRun (cwShowing c) w = cwShowing ((c :: w).getLast (by simp)) := by
  induction w generalizing c with
  | nil => rfl
  | cons d w ih =>
    rw [List.mem_cons, not_or] at hrest
    obtain ⟨hc, hrest⟩ := hrest
    obtain ⟨hcd, hw⟩ := List.isChain_cons_cons.1 hw
    have hd : d ≠ 0b11#2 := by rintro rfl; simp at hrest
    rw [qRun_cons, qNext_cwShowing (Ne.symm hc), if_pos ⟨hd, hcd⟩, ih hrest hw, List.getLast_cons_cons]

/-- R87: codes that lead a clockwise state nowhere to START are a walk. -/
theorem isChain_of_qRun_cwShowing_ne_start {c : Code} {w : List Code} (hc : c ≠ 0b11#2)
    (hw : ∀ u, u <+: w → qRun (cwShowing c) u ≠ .start) :
    0b11#2 ∉ c :: w ∧ List.IsChain SameOrNeighbour (c :: w) := by
  induction w generalizing c with
  | nil => exact ⟨by simpa using Ne.symm hc, List.isChain_singleton c⟩
  | cons d w ih =>
    have hone := hw [d] (by simp)
    rw [qRun_cons, qRun_nil, qNext_cwShowing hc] at hone
    have hstep : d ≠ 0b11#2 ∧ SameOrNeighbour c d := by
      by_contra hno
      exact hone (if_neg hno)
    obtain ⟨hrest, hchain⟩ := ih hstep.1 fun u hu => by
      have hcons := hw (d :: u) (List.cons_prefix_cons.2 ⟨rfl, hu⟩)
      rwa [qRun_cons, qNext_cwShowing hc, if_pos hstep] at hcons
    exact ⟨List.not_mem_cons_of_ne_of_not_mem (Ne.symm hc) hrest, List.isChain_cons_cons.2 ⟨hstep.2, hchain⟩⟩

/-- Whether a state is one of the three clockwise ones. -/
def QState.onClockwiseSide : QState → Bool
  | .cw1 | .cw2 | .cw3 => true
  | _ => false

/-- R87: a code that does not lead to START leaves the decoder on its side. -/
theorem qNext_onClockwiseSide {q : QState} {c : Code} (hq : q ≠ .start) (h : qNext q c ≠ .start) :
    (qNext q c).onClockwiseSide = q.onClockwiseSide := by
  revert hq c; cases q <;> decide

/-- R87: codes that lead nowhere to START leave the decoder on its side. -/
theorem qRun_onClockwiseSide {q : QState} {w : List Code} (hw : ∀ u, u <+: w → qRun q u ≠ .start) :
    (qRun q w).onClockwiseSide = q.onClockwiseSide := by
  induction w generalizing q with
  | nil => rfl
  | cons d w ih =>
    rw [qRun_cons, ih fun u hu => hw (d :: u) (List.cons_prefix_cons.2 ⟨rfl, hu⟩)]
    exact qNext_onClockwiseSide (hw [] List.nil_prefix) (hw [d] (by simp))

/-- R71: START goes to the clockwise side on 10 and to the other on 01 alone. -/
theorem qNext_start_ne_start {c : Code} (h : qNext .start c ≠ .start) : c = 0b10#2 ∨ c = 0b01#2 := by
  revert c; decide

/-- R87: no code of the list but the first is taken in START. -/
def OnlyFirstInStart (w : List Code) : Prop := ∀ u, u <+: w → u ≠ [] → u ≠ w → qRun .start u ≠ .start

/-- A run that has not ended in START either was not there since its first code. -/
theorem OnlyFirstInStart.tail_ne_start {c : Code} {w : List Code} (hw : OnlyFirstInStart (c :: w))
    (h : qRun .start (c :: w) ≠ .start) : ∀ u, u <+: w → qRun (qNext .start c) u ≠ .start := by
  intro u hu
  by_cases heq : c :: u = c :: w
  · rw [← qRun_cons, heq]; exact h
  · exact hw (c :: u) (List.cons_prefix_cons.2 ⟨rfl, hu⟩) (by simp) heq

/-- R88: so it is with the channels exchanged. -/
theorem OnlyFirstInStart.map_swapChannels {w : List Code} (hw : OnlyFirstInStart w) :
    OnlyFirstInStart (w.map swapChannels) := by
  intro v hv h0 h1 hstart
  obtain ⟨u, hu, rfl⟩ := List.prefix_map_iff.1 hv
  refine hw u hu (by simpa using h0) (by rintro rfl; exact h1 rfl) ?_
  rwa [show QState.start = QState.start.mirror from rfl, qRun_mirror, QState.mirror_eq_iff, QState.mirror_mirror]
    at hstart

/-- R87: since START, the decoder stands in CW_3 exactly after a full walk. -/
theorem qRun_start_eq_cw3_iff {w : List Code} (hw : OnlyFirstInStart w) :
    qRun .start w = .cw3 ↔ PathWalk 0b10#2 0b01#2 w := by
  cases w with
  | nil => simp
  | cons c w =>
    constructor
    · intro h
      have hstay := hw.tail_ne_start (by rw [h]; decide)
      rcases qNext_start_ne_start (hstay [] List.nil_prefix) with rfl | rfl
      · obtain ⟨hrest, hchain⟩ := isChain_of_qRun_cwShowing_ne_start (c := 0b10#2) (by decide) hstay
        have hlast := (qRun_cwShowing_of_isChain hrest hchain).symm.trans h
        rw [cwShowing_eq_cw3_iff] at hlast
        exact ⟨rfl, by rw [List.getLast?_eq_some_getLast (by simp), hlast], hrest, hchain⟩
      · have hside := qRun_onClockwiseSide hstay
        rw [← qRun_cons, h] at hside
        exact absurd hside (by decide)
    · rintro ⟨hhead, hlast, hrest, hchain⟩
      obtain rfl : c = 0b10#2 := by simpa using hhead
      rw [List.getLast?_eq_some_getLast (by simp), Option.some.injEq] at hlast
      have hrun := qRun_cwShowing_of_isChain hrest hchain
      rw [hlast] at hrun
      exact hrun

/-- R36: the path with the channels exchanged is the path. -/
theorem sameOrNeighbour_swapChannels (c d : Code) :
    SameOrNeighbour (swapChannels c) (swapChannels d) ↔ SameOrNeighbour c d := by
  revert c d; decide

/-- R36: a walk seen with the channels exchanged is a walk between the exchanged ends. -/
theorem pathWalk_map_swapChannels (first last : Code) (w : List Code) :
    PathWalk first last (w.map swapChannels) ↔ PathWalk (swapChannels first) (swapChannels last) w := by
  have hrest : 0b11#2 ∈ w.map swapChannels ↔ 0b11#2 ∈ w := by
    simp only [List.mem_map, swapChannels_eq_iff]
    exact exists_eq_right
  simp only [PathWalk, List.head?_map, List.getLast?_map, Option.map_eq_some_iff, swapChannels_eq_iff,
    exists_eq_right, hrest, List.isChain_map, sameOrNeighbour_swapChannels]

/-- R87, R88: the mirror image, CCW_3 exactly after a full walk the other way. -/
theorem qRun_start_eq_ccw3_iff {w : List Code} (hw : OnlyFirstInStart w) :
    qRun .start w = .ccw3 ↔ PathWalk 0b01#2 0b10#2 w := by
  have h := qRun_start_eq_cw3_iff hw.map_swapChannels
  rwa [pathWalk_map_swapChannels, show QState.start = QState.start.mirror from rfl, qRun_mirror, QState.mirror_eq_iff]
    at h

/-- R87: from one end of the path a walk gets to the other end through 00. -/
theorem middle_last_sublist_of_isChain {first last : Code} {w : List Code} (hfirst : first ≠ 0b00#2)
    (hlast : last ≠ 0b00#2) (hne : first ≠ last) (hw : List.IsChain SameOrNeighbour (first :: w))
    (hend : (first :: w).getLast? = some last) : [0b00#2, last].Sublist w := by
  induction w with
  | nil => exact absurd (by simpa using hend) hne
  | cons d w ih =>
    obtain ⟨hstep, hw⟩ := List.isChain_cons_cons.1 hw
    rw [List.getLast?_cons_cons] at hend
    rcases hstep with rfl | hmid | rfl
    · exact (ih hw hend).cons _
    · exact absurd hmid hfirst
    · have hmem : last ∈ w := (List.mem_cons.1 (List.mem_of_getLast? hend)).resolve_left hlast
      exact (List.singleton_sublist.2 hmem).cons_cons _

/-- R87: a full walk contains its first end, the middle and its last end in this order. -/
theorem PathWalk.sublist {first last : Code} {w : List Code} (hfirst : first ≠ 0b00#2) (hlast : last ≠ 0b00#2)
    (hne : first ≠ last) (hw : PathWalk first last w) : [first, 0b00#2, last].Sublist w := by
  obtain ⟨hhead, hend, -, hchain⟩ := hw
  obtain ⟨w, rfl⟩ := List.head?_eq_some_iff.1 hhead
  exact (middle_last_sublist_of_isChain hfirst hlast hne hchain hend).cons_cons first

/-- R116: a completing run of samples leaves the decoder where its own run on the codes does. -/
theorem runFor_samples_state {cs : List Code} {s t : State} (hin : s.inputs = samples cs)
    (h : runFor cs.length s = .next t) : t.state = qRun s.state cs := by
  induction cs generalizing s with
  | nil => cases h; rfl
  | cons c cs ih =>
    obtain ⟨u, hu, hrun⟩ := runFor_succ_eq_next h
    obtain ⟨huin, hustate, -⟩ := step_presented_decoder (i := stepOf c) (by simp [stepOf]) hin hu
    have hnext : decoderAfter (stepOf c) s.state = qNext s.state c := congrArg (qNext s.state) (sampleCode_bits c)
    rw [ih huin hrun, hustate, hnext, qRun_cons]

/-- R87: what holds of the codes since START holds in the machine of the codes since the latest step from START. -/
theorem state_since_start {s t : State} {before w : List Code} (hs : s.state = .start)
    (hin : s.inputs = samples (before ++ w)) (h : runFor (before ++ w).length s = .next t)
    (hbefore : qRun .start before = .start)
    (hw : ∀ u, u <+: w → u ≠ [] → u ≠ w → qRun .start (before ++ u) ≠ .start) :
    t.state = qRun .start w ∧ OnlyFirstInStart w := by
  have hsuffix : ∀ u, qRun .start (before ++ u) = qRun .start u := fun u => by rw [qRun_append, hbefore]
  simp only [hsuffix] at hw
  exact ⟨by rw [runFor_samples_state hin h, hs, hsuffix], hw⟩

/-- Settles O23: the flagged entry by `qDir_eq_clockwise_iff`, the walk by `qRun_start_eq_cw3_iff`. -/
theorem clockwiseReportNeedsTheFullWalk : Obligations.ClockwiseReportNeedsTheFullWalk := by
  refine ⟨qDir_eq_clockwise_iff, fun s t before w hs hin h _ hbefore hw => ?_⟩
  obtain ⟨hstate, hfirst⟩ := state_since_start hs hin h hbefore hw
  rw [hstate, qRun_start_eq_cw3_iff hfirst]
  exact ⟨Iff.rfl, PathWalk.sublist (by decide) (by decide) (by decide)⟩

/-- Settles O24: the mirror image, by `qDir_eq_counterClockwise_iff` and `qRun_start_eq_ccw3_iff`. -/
theorem counterClockwiseReportNeedsTheFullWalk : Obligations.CounterClockwiseReportNeedsTheFullWalk := by
  refine ⟨qDir_eq_counterClockwise_iff, fun s t before w hs hin h _ hbefore hw => ?_⟩
  obtain ⟨hstate, hfirst⟩ := state_since_start hs hin h hbefore hw
  rw [hstate, qRun_start_eq_ccw3_iff hfirst]
  exact ⟨Iff.rfl, PathWalk.sublist (by decide) (by decide) (by decide)⟩

end Sys2Proof.Machine
end

section
/-!
PROOF. Proofs/Arithmetic.lean: floored modulo, clamp and the in-range member of a residue class
(41_ranged_counter.md R93, R95, R96).
-/

namespace Sys2Proof.Machine

/-- Settles O43: `fmod` is such a residue, and two residues of one class are equal. -/
theorem flooredModuloIsTheResidue : Obligations.FlooredModuloIsTheResidue := by
  intro x m r hm
  rw [fmod_eq, Int.fmod_eq_emod_of_nonneg x (by omega)]
  constructor
  · rintro rfl
    have hlt := Int.emod_lt_of_pos x (show 0 < m by omega)
    exact ⟨Int.emod_nonneg x (by omega), by omega, Int.dvd_self_sub_emod⟩
  · rintro ⟨hlo, hhi, hdvd⟩
    have hmod : r % m = x % m := Int.modEq_iff_dvd.2 hdvd
    rw [← hmod, Int.emod_eq_of_lt hlo (by omega)]

/-- R96: clamp as the minimum of a maximum. -/
theorem clamp_eq_min_max (x : Int) {lo hi : Int} (h : lo ≤ hi) : clamp x lo hi = min hi (max lo x) := by
  unfold clamp
  split
  · omega
  · split <;> omega

/-- Settles O44: the cases are those of `min hi (max lo x)`. -/
theorem clampIsMinOfMax : Obligations.ClampIsMinOfMax := by
  intro x lo hi h
  rw [clamp_eq_min_max x h]
  refine ⟨rfl, ?_, ?_, ?_⟩ <;> omega

/-- R93: the number the Wrap policy stores for the sum `x`. -/
def wrapInto (lo hi x : Int) : Int := lo + fmod (x - lo) (hi - lo + 1)

/-- R93: the stored number lies in the range. -/
theorem wrapInto_mem {lo hi : Int} (h : lo ≤ hi) (x : Int) : lo ≤ wrapInto lo hi x ∧ wrapInto lo hi x ≤ hi := by
  have hb := fmod_bounds (x - lo) (m := hi - lo + 1) (by omega)
  unfold wrapInto
  omega

/-- R93: a number of the range is the stored one exactly when it is in the class of the sum. -/
theorem eq_wrapInto_iff {lo hi u : Int} (hlo : lo ≤ u) (hhi : u ≤ hi) (x : Int) :
    u = wrapInto lo hi x ↔ hi - lo + 1 ∣ x - u := by
  have hres := flooredModuloIsTheResidue (x - lo) (hi - lo + 1) (u - lo) (by omega)
  have hshift : x - lo - (u - lo) = x - u := by omega
  rw [hshift] at hres
  calc u = wrapInto lo hi x
    _ ↔ u - lo = fmod (x - lo) (hi - lo + 1) := by unfold wrapInto; omega
    _ ↔ hi - lo + 1 ∣ x - u := hres.trans ⟨fun h => h.2.2, fun h => ⟨by omega, by omega, h⟩⟩

/-- R93: a sum inside the range is stored as it is. -/
theorem wrapInto_of_mem {lo hi x : Int} (hlo : lo ≤ x) (hhi : x ≤ hi) : wrapInto lo hi x = x :=
  ((eq_wrapInto_iff hlo hhi x).2 (by simp)).symm

/-- R93: what was wrapped before is wrapped with what is added afterwards. -/
theorem wrapInto_wrapInto_add {lo hi : Int} (h : lo ≤ hi) (x k : Int) :
    wrapInto lo hi (wrapInto lo hi x + k) = wrapInto lo hi (x + k) := by
  have ⟨hlo, hhi⟩ := wrapInto_mem h x
  have ⟨hlo', hhi'⟩ := wrapInto_mem h (wrapInto lo hi x + k)
  have hclass : hi - lo + 1 ∣ x - wrapInto lo hi x := (eq_wrapInto_iff hlo hhi x).1 rfl
  have hclass' := (eq_wrapInto_iff hlo' hhi' (wrapInto lo hi x + k)).1 rfl
  rw [eq_wrapInto_iff hlo' hhi', show x + k - wrapInto lo hi (wrapInto lo hi x + k) =
    x - wrapInto lo hi x + (wrapInto lo hi x + k - wrapInto lo hi (wrapInto lo hi x + k)) by ring]
  exact dvd_add hclass hclass'

end Sys2Proof.Machine
end

section
/-!
PROOF. Proofs/Apply.lean: APPLY in each mode, and when it is refused (41_ranged_counter.md R90 to R97, R104).
-/

namespace Sys2Proof

/-- R97: one more than a W-bit word is no W-bit word exactly at MAXW. -/
theorem Width.represents_add_one_eq_false_iff {w : Width} {x : Int} (hx : w.represents x = true) :
    w.represents (x + 1) = false ↔ ∃ n, w = .bits n ∧ x = 2 ^ (n - 1) - 1 := by
  cases w with
  | inf => simp [Width.represents]
  | bits n =>
    simp only [Width.represents, decide_eq_true_eq, decide_eq_false_iff_not, Width.bits.injEq, exists_eq_left'] at *
    omega

/-- R97: one less than a W-bit word is no W-bit word exactly at MINW. -/
theorem Width.represents_sub_one_eq_false_iff {w : Width} {x : Int} (hx : w.represents x = true) :
    w.represents (x + -1) = false ↔ ∃ n, w = .bits n ∧ x = -(2 ^ (n - 1)) := by
  cases w with
  | inf => simp [Width.represents]
  | bits n =>
    simp only [Width.represents, decide_eq_true_eq, decide_eq_false_iff_not, Width.bits.injEq, exists_eq_left'] at *
    omega

end Sys2Proof

namespace Sys2Proof.Machine

/-- R50: the increment of a direction. -/
theorem increment_of_ne_none {d : Direction} (hd : d ≠ .none) (rev : Bool) :
    increment d rev = some ((if d = .clockwise then 1 else -1) * (if rev then -1 else 1)) := by
  cases d with
  | none => exact absurd rfl hd
  | clockwise => rfl
  | counterClockwise => rfl

/-- R50: what increments by +1. -/
theorem increment_eq_some_one_iff (d : Direction) (rev : Bool) :
    increment d rev = some 1 ↔ d ≠ .none ∧ (d = .clockwise ↔ rev = false) := by
  cases d <;> cases rev <;> decide

/-- R50: what increments by -1. -/
theorem increment_eq_some_neg_one_iff (d : Direction) (rev : Bool) :
    increment d rev = some (-1) ↔ d ≠ .none ∧ (d = .clockwise ↔ rev = true) := by
  cases d <;> cases rev <;> decide

/-- R92: the sum, where the width can hold it. -/
theorem policyValue_of_unbounded {s : State} {k : Int} (hm : s.mode = .unbounded)
    (hw : s.params.width.represents (s.value + k) = true) : policyValue s k = .ok (s.value + k) := by
  simp [policyValue, hm, unboundedValue, hw]

/-- R93: the in-range member of the class of the sum. -/
theorem policyValue_of_wrap {s : State} (hm : s.mode = .wrap) (hb : s.minVal ≤ s.maxVal) (k : Int) :
    policyValue s k = .ok (wrapInto s.minVal s.maxVal (s.value + k)) := by
  simp [policyValue, hm, wrapValue, hb, wrapInto]

/-- R94: the clamped sum. -/
theorem policyValue_of_bounded {s : State} (hm : s.mode = .bounded) (hb : s.minVal ≤ s.maxVal) (k : Int) :
    policyValue s k = .ok (min s.maxVal (max s.minVal (s.value + k))) := by
  simp [policyValue, hm, boundedValue, hb, clamp_eq_min_max]

/-- R90: C.APPLY by the increment of its direction. -/
theorem cApply_eq (d : Direction) (s : State) :
    cApply d s = (increment d s.rev).elim (.ok s) fun k => (policyValue s k).map s.setValue := by
  unfold cApply
  cases increment d s.rev with
  | none => rfl
  | some k => cases h : policyValue s k <;> simp [h, Except.map]

/-- R90: C.APPLY of None writes nothing. -/
@[simp] theorem cApply_none (s : State) : cApply .none s = .ok s := rfl

/-- R90: C.APPLY of a direction stores what the policy gives. -/
theorem cApply_of_policyValue {d : Direction} {s : State} {k v : Int} (hk : increment d s.rev = some k)
    (hv : policyValue s k = .ok v) : cApply d s = .ok (s.setValue v) := by
  simp [cApply_eq, hk, hv, Except.map]

/-- R117: APPLY of a direction stores what the policy gives and answers `resp(00, OK, 0)`. -/
theorem exec_apply_of_policyValue {d : Direction} {s : State} {v : Int} (hd : d ≠ .none)
    (hv : policyValue s ((if d = .clockwise then 1 else -1) * (if s.rev then -1 else 1)) = .ok v) :
    exec (.apply d) s = .next { s with value := v, resp := some ⟨.none, .ok, 0⟩ } :=
  (execApply_eq_next_iff d s _).2
    ⟨s.setValue v, cApply_of_policyValue (increment_of_ne_none hd s.rev) hv, rfl⟩

/-- R117: APPLY is refused exactly where the policy refuses the increment of its direction. -/
theorem exec_apply_eq_refused_iff (d : Direction) (s : State) (r : Refusal) :
    exec (.apply d) s = .refused r ↔ ∃ k, increment d s.rev = some k ∧ policyValue s k = .error r :=
  (answer_eq_refused_iff _ _ r).trans (cApply_eq_error_iff d s r)

/-- Settles O36: C.APPLY returns on None before it looks at the mode. -/
theorem applyNoneWritesNothing : Obligations.ApplyNoneWritesNothing := fun s =>
  (execApply_eq_next_iff .none s _).2 ⟨s, cApply_none s, rfl⟩

/-- Settles O37, by `policyValue_of_unbounded` and the refusals of the policy. -/
theorem applyUnboundedAddsTheIncrement : Obligations.ApplyUnboundedAddsTheIncrement := by
  rintro d s _ hd rfl hm
  refine ⟨fun hw => exec_apply_of_policyValue hd (policyValue_of_unbounded hm hw), fun hw => ?_⟩
  exact (exec_apply_eq_refused_iff d s _).2
    ⟨_, increment_of_ne_none hd s.rev, (policyValue_eq_error_iff s _ _).2 (.inl ⟨rfl, hm, hw⟩)⟩

/-- Settles O38: `wrapInto` gives the value, `eq_wrapInto_iff` that it is the only one. -/
theorem applyWrapStoresTheInRangeMember : Obligations.ApplyWrapStoresTheInRangeMember := by
  rintro d s k hd rfl hm hb
  exact ⟨_, exec_apply_of_policyValue hd (policyValue_of_wrap hm hb _), by rw [wrapInto, fmod_eq],
    (wrapInto_mem hb _).1, (wrapInto_mem hb _).2, fun u hu hu' => (eq_wrapInto_iff hu hu' _).symm⟩

/-- Settles O39: each corner case is one of `min max_val (max min_val (value + incr))` with `incr` = 1 or -1. -/
theorem applyBoundedStoresTheClampedSum : Obligations.ApplyBoundedStoresTheClampedSum := by
  rintro d s k hd rfl hm hb
  obtain ⟨-, hk⟩ := increment_eq_some (increment_of_ne_none hd s.rev)
  refine ⟨_, exec_apply_of_policyValue hd (policyValue_of_bounded hm hb _), rfl, ?_⟩
  generalize (if d = .clockwise then 1 else -1) * (if s.rev then -1 else 1) = k at hk
  omega

/-- R97: in a valid state the sum with an increment leaves the width exactly at its ends. -/
theorem represents_increment_eq_false_iff {d : Direction} {rev : Bool} {w : Width} {x k : Int}
    (hk : increment d rev = some k) (hx : w.represents x = true) :
    w.represents (x + k) = false ↔
      ∃ n, w = .bits n ∧ (x = 2 ^ (n - 1) - 1 ∧ (d = .clockwise ↔ rev = false) ∨
        x = -(2 ^ (n - 1)) ∧ (d = .clockwise ↔ rev = true)) := by
  obtain ⟨-, rfl | rfl⟩ := increment_eq_some hk
  · obtain ⟨-, hd⟩ := (increment_eq_some_one_iff d rev).1 hk
    simp [Width.represents_add_one_eq_false_iff hx, hd]
  · obtain ⟨-, hd⟩ := (increment_eq_some_neg_one_iff d rev).1 hk
    simp [Width.represents_sub_one_eq_false_iff hx, hd]

/-- Settles O40: bounds in order leave the policy the Unbounded sum to refuse, which is at an end of the width. -/
theorem applyIsRefusedExactlyAtOverflow : Obligations.ApplyIsRefusedExactlyAtOverflow := by
  rintro d s r ⟨-, hval, -, -, hb⟩
  rw [exec_apply_eq_refused_iff]
  constructor
  · rintro ⟨k, hk, herr⟩
    rcases (policyValue_eq_error_iff s k r).1 herr with ⟨hr, hm, hsum⟩ | ⟨-, hm, hlt⟩
    · exact ⟨hr, hm, (increment_eq_some hk).1, (represents_increment_eq_false_iff hk hval).1 hsum⟩
    · exact absurd (hb hm) (not_le.2 hlt)
  · rintro ⟨hr, hm, hd, hend⟩
    have hk := increment_of_ne_none hd s.rev
    exact ⟨_, hk, (policyValue_eq_error_iff s _ r).2
      (.inl ⟨hr, hm, (represents_increment_eq_false_iff hk hval).2 hend⟩)⟩

/-- Settles O41, by the refusals of the policy. -/
theorem invertedBoundsAreRefused : Obligations.InvertedBoundsAreRefused := by
  intro d s hd hm hlt
  exact (exec_apply_eq_refused_iff d s _).2
    ⟨_, increment_of_ne_none hd s.rev, (policyValue_eq_error_iff s _ _).2 (.inr ⟨rfl, hm, hlt⟩)⟩

end Sys2Proof.Machine
end

section
/-!
PROOF. Proofs/Configuration.lean: which configurations CFG accepts and what it answers (41_ranged_counter.md R100
to R102, R135).
-/

namespace Sys2Proof

/-- R16: different modes have different codes. -/
theorem RangeMode.code_injective : Function.Injective RangeMode.code := fun m m' h => by
  simpa using congrArg RangeMode.ofCode h

end Sys2Proof

namespace Sys2Proof.Machine

/-- R101: the reserved mode code is rejected first, whatever the bounds. -/
theorem validate_of_code_three {c : Merged} (h : c.mode = 3#2) : validate c = .error .errMode := by
  simp [validate, (RangeMode.ofCode_eq_none_iff c.mode).2 h]

/-- R101: a mode with bounds is rejected on inverted ones. -/
theorem validate_of_inverted {c : Merged} {m : RangeMode} (hc : c.mode = m.code) (hm : m ≠ .unbounded)
    (hlt : c.maxVal < c.minVal) : validate c = .error .errRange := by
  simp [validate, (RangeMode.ofCode_eq_some_iff c.mode m).2 hc, hm, hlt]

/-- R102: an accepted CFG commits its merged configuration. -/
theorem exec_cfg_of_validate_ok {v n x : Option Int} {r : Option Bool} {m : Option (BitVec 2)} {s : State}
    {mode : RangeMode} (h : validate (merge v n x r m s) = .ok mode) :
    exec (.cfg v n x r m) s = .next ((commit (merge v n x r m s) mode s).respond okResponse) := by
  simp [exec, execCfg, h]

/-- R101, R136: a rejected CFG answers the error and writes no register. -/
theorem exec_cfg_of_validate_error {v n x : Option Int} {r : Option Bool} {m : Option (BitVec 2)} {s : State}
    {e : ErrCode} (h : validate (merge v n x r m s) = .error e) :
    exec (.cfg v n x r m) s = .next (s.respond (errResponse e)) := by
  simp [exec, execCfg, h, raiseErr]

/-- R16, R100: the merged mode is `mode`, retained or supplied by its code. -/
theorem merge_mode_eq_code_iff (v n x : Option Int) (r : Option Bool) (m : Option (BitVec 2)) (s : State)
    (mode : RangeMode) :
    (merge v n x r m s).mode = mode.code ↔ m = none ∧ mode = s.mode ∨ m = some mode.code := by
  cases m with
  | none => simp [merge, RangeMode.code_injective.eq_iff, eq_comm]
  | some c => simp [merge]

/-- R16, R100: without the reserved code the merged mode is one of the three. -/
theorem exists_merge_mode_eq_code (v n x : Option Int) (r : Option Bool) {m : Option (BitVec 2)} (s : State)
    (hm : m ≠ some 3#2) : ∃ mode : RangeMode, (merge v n x r m s).mode = mode.code := by
  have hthree : (merge v n x r m s).mode ≠ 3#2 := by
    cases m with
    | none => exact s.mode.code_ne_three
    | some c => exact fun h => hm (congrArg some h)
  rw [Ne, ← RangeMode.ofCode_eq_none_iff] at hthree
  obtain ⟨mode, hmode⟩ := Option.ne_none_iff_exists'.1 hthree
  exact ⟨mode, (RangeMode.ofCode_eq_some_iff _ mode).1 hmode⟩

/-- Settles O48: the merged mode is `mode`, which validation accepts. -/
theorem acceptedCfgCommitsTheMergedConfiguration : Obligations.AcceptedCfgCommitsTheMergedConfiguration := by
  intro v n x r m s mode hmode hb
  have hcode : (merge v n x r m s).mode = mode.code := (merge_mode_eq_code_iff v n x r m s mode).2 <| by
    rcases hmode with h | ⟨rfl, rfl⟩ | ⟨rfl, rfl⟩ | ⟨rfl, rfl⟩
    · exact .inl h
    all_goals exact .inr rfl
  exact exec_cfg_of_validate_ok ((validate_eq_ok_iff _ mode).2 ⟨hcode, hb⟩)

/-- Settles O49, by cases on whether the merged mode is Unbounded. -/
theorem invalidCfgIsRejected : Obligations.InvalidCfgIsRejected := by
  intro v n x r s
  refine ⟨exec_cfg_of_validate_error (validate_of_code_three rfl), fun m hm => ?_⟩
  obtain ⟨mode, hcode⟩ := exists_merge_mode_eq_code v n x r s hm
  have hunbounded : mode = .unbounded ↔ m = none ∧ .unbounded = s.mode ∨ m = some RangeMode.unbounded.code := by
    rw [← merge_mode_eq_code_iff v n x r, hcode, RangeMode.code_injective.eq_iff]
  constructor
  · intro hbounds hlt
    have hne : mode ≠ .unbounded := by
      rw [Ne, hunbounded]
      rintro (⟨rfl, hs⟩ | rfl)
      · simp [← hs] at hbounds
      · simp [RangeMode.code] at hbounds
    exact exec_cfg_of_validate_error (validate_of_inverted hcode hne hlt)
  · intro hok
    have hb : mode ≠ .unbounded → n.getD s.minVal ≤ x.getD s.maxVal := by
      intro hne
      rcases hok with rfl | ⟨rfl, hs⟩ | hle
      · exact absurd (hunbounded.2 (.inr rfl)) hne
      · exact absurd (hunbounded.2 (.inl ⟨rfl, hs.symm⟩)) hne
      · exact hle
    exact ⟨_, exec_cfg_of_validate_ok ((validate_eq_ok_iff _ mode).2 ⟨hcode, hb⟩), rfl⟩

end Sys2Proof.Machine
end

section
/-!
PROOF. Proofs/SampleRuns.lean: a run of samples is the decoder's run beside the counter's run (42_top_commands.md
R116), and what the counter's run on a list of directions leaves in `value` (41_ranged_counter.md R92, R93, R103).
-/

namespace Sys2Proof.Machine

/-- The counter of a state beside another decoder state, other inputs and another response. -/
def State.withRest (s : State) (q : QState) (l : List Input) (r : Option Response) : State :=
  { s with state := q, inputs := l, resp := r }

/-- A result of the counter as an outcome of the machine. -/
def outcome (o : Except Refusal State) : Host.Outcome State Fault Refusal :=
  match o with
  | .ok t => .next t
  | .error e => .refused e

/-- C.APPLY neither reads nor writes what stands beside the counter. -/
theorem cApply_withRest (d : Direction) (s : State) (q : QState) (l : List Input) (r : Option Response) :
    cApply d (s.withRest q l r) = (cApply d s).map fun t => t.withRest q l r := by
  have hp : ∀ k, policyValue (s.withRest q l r) k = policyValue s k := fun _ => rfl
  have hrev : (s.withRest q l r).rev = s.rev := rfl
  simp only [cApply_eq, hp, hrev]
  cases increment d s.rev with
  | none => rfl
  | some k => simp only [Option.elim_some]; cases policyValue s k <;> rfl

/-- One direction more is one C.APPLY first. -/
theorem counterRun_cons (d : Direction) (ds : List Direction) (s : State) :
    counterRun (d :: ds) s = (cApply d s).bind (counterRun ds) := by
  rw [counterRun]
  cases cApply d s <;> rfl

/-- The counter's run neither reads nor writes what stands beside the counter. -/
theorem counterRun_withRest (ds : List Direction) (s : State) (q : QState) (l : List Input) (r : Option Response) :
    counterRun ds (s.withRest q l r) = (counterRun ds s).map fun t => t.withRest q l r := by
  induction ds generalizing s with
  | nil => rfl
  | cons d ds ih =>
    rw [counterRun_cons, counterRun_cons, cApply_withRest]
    cases cApply d s with
    | error e => rfl
    | ok u => exact ih u

/-- R116: a presented sample is C.APPLY of the table's direction beside the decoder's move. -/
theorem step_sample_eq_outcome {s : State} {c : Code} {rest : List Input}
    (hin : s.inputs = .command (encode (stepOf c)) :: rest) :
    step s = outcome ((cApply (qDir s.state c) s).map fun u =>
      u.withRest (qNext s.state c) rest (some ⟨qDir s.state c, .ok, 0⟩)) := by
  have happly := cApply_withRest (qDir s.state c) s (qNext s.state c) rest s.resp
  have hexec : step s = answer (cApply (qDir s.state c) (s.withRest (qNext s.state c) rest s.resp))
      (dirResponse (qDir s.state c)) := by
    rw [step_sample hin, stepOf, exec, execStep, qStep_eq, sampleCode_bits]
    rfl
  rw [hexec, happly]
  cases cApply (qDir s.state c) s <;> rfl

/-- R116: the machine on samples is the decoder's run beside the counter's run on the directions reported. -/
theorem runFor_samples {cs : List Code} {s : State} (hin : s.inputs = samples cs) :
    runFor cs.length s = outcome ((counterRun (qDirs s.state cs) s).map fun u =>
      u.withRest (qRun s.state cs) [] (lastResponse (qDirs s.state cs) s.resp)) := by
  induction cs generalizing s with
  | nil => rw [List.length_nil, runFor_zero, ← samples_nil, ← hin]; rfl
  | cons c cs ih =>
    rw [List.length_cons, runFor_succ, step_sample_eq_outcome hin, qDirs_cons, counterRun_cons, lastResponse_cons]
    cases cApply (qDir s.state c) s with
    | error e => rfl
    | ok u =>
      refine (ih (s := u.withRest _ (samples cs) _) rfl).trans ?_
      rw [counterRun_withRest]
      show outcome (((counterRun (qDirs (qNext s.state c) cs) u).map _).map _) = outcome ((counterRun _ u).map _)
      cases counterRun (qDirs (qNext s.state c) cs) u <;> rfl

/-- R50: a reported direction adds its increment to the net number of reports with the sign of the reversal. -/
theorem mul_netReports_cons {d : Direction} (hd : d ≠ .none) (ds : List Direction) (sgn : Int) :
    sgn * netReports (d :: ds) = (if d = .clockwise then 1 else -1) * sgn + sgn * netReports ds := by
  rw [netReports_cons, mul_add, add_comm, mul_comm sgn (ite _ _ _)]
  cases d with
  | none => exact absurd rfl hd
  | clockwise => rfl
  | counterClockwise => rfl

/-- None is no report. -/
@[simp] theorem netReports_cons_none (ds : List Direction) : netReports (.none :: ds) = netReports ds := by
  simp [netReports_cons]

/-- One C.APPLY of a direction first: its value is the one from before for the rest. -/
theorem counterRun_cons_of_policyValue {d : Direction} {s : State} {v : Int} (hd : d ≠ .none)
    (hv : policyValue s ((if d = .clockwise then 1 else -1) * (if s.rev then -1 else 1)) = .ok v)
    (ds : List Direction) : counterRun (d :: ds) s = counterRun ds (s.setValue v) := by
  rw [counterRun_cons, cApply_of_policyValue (increment_of_ne_none hd s.rev) hv]
  rfl

/-- R92, R50: in Unbounded mode of unlimited width every direction is added, with the sign of the reversal. -/
theorem counterRun_unbounded (ds : List Direction) {s : State} (hm : s.mode = .unbounded)
    (hw : s.params.width = .inf) :
    counterRun ds s = .ok (s.setValue (s.value + (if s.rev then -1 else 1) * netReports ds)) := by
  induction ds generalizing s with
  | nil => simp [counterRun, netReports, State.setValue]
  | cons d ds ih =>
    by_cases hd : d = .none
    · rw [hd, netReports_cons_none, ← ih hm hw]
      rfl
    · have hfits : ∀ x, s.params.width.represents x = true := fun x => by rw [hw]; rfl
      rw [counterRun_cons_of_policyValue hd (policyValue_of_unbounded hm (hfits _)), ih,
        State.setValue_value, State.setValue_rev, mul_netReports_cons hd, add_assoc]
      · rfl
      · exact hm
      · exact hw

/-- R93: in Wrap mode, in the range or once there was a direction, the value is the in-range member of the class of
the start value plus every direction, with the sign of the reversal. -/
theorem counterRun_wrap {ds : List Direction} {s : State} (hm : s.mode = .wrap) (hb : s.minVal ≤ s.maxVal)
    (h : InRange s ∨ ∃ d ∈ ds, d ≠ .none) :
    counterRun ds s = .ok (s.setValue
      (wrapInto s.minVal s.maxVal (s.value + (if s.rev then -1 else 1) * netReports ds))) := by
  induction ds generalizing s with
  | nil =>
    obtain ⟨hlo, hhi⟩ : InRange s := by simpa using h
    simp [counterRun, netReports, wrapInto_of_mem hlo hhi, State.setValue]
  | cons d ds ih =>
    by_cases hd : d = .none
    · rw [hd, netReports_cons_none, ← ih hm hb (by simpa [hd] using h)]
      rfl
    · rw [counterRun_cons_of_policyValue hd (policyValue_of_wrap hm hb _), ih, State.setValue_value,
        State.setValue_minVal, State.setValue_maxVal, State.setValue_rev, wrapInto_wrapInto_add hb,
        mul_netReports_cons hd, add_assoc]
      · rfl
      · exact hm
      · exact hb
      · exact .inl (wrapInto_mem hb _)

/-- Settles O56: the run of samples by `runFor_samples`, the counter's by `counterRun_unbounded`. -/
theorem unboundedValueCountsTheReports : Obligations.UnboundedValueCountsTheReports := by
  intro cs s hin hm hw
  rw [runFor_samples hin, counterRun_unbounded _ hm hw]
  exact ⟨_, rfl⟩

/-- Settles O57: both runs count the same reports, with opposite signs. -/
theorem reversalNegatesTheUnboundedChange : Obligations.ReversalNegatesTheUnboundedChange := by
  intro cs s hin hm hw
  obtain ⟨r, hrun⟩ := unboundedValueCountsTheReports cs s hin hm hw
  obtain ⟨r', hrun'⟩ := unboundedValueCountsTheReports cs { s with rev := !s.rev } hin hm hw
  refine ⟨_, _, hrun, hrun', ?_, rfl⟩
  cases s.rev <;> simp

/-- Settles O58: the run of samples by `runFor_samples`, the counter's by `counterRun_wrap`. -/
theorem wrapValueCountsTheReportsModulo : Obligations.WrapValueCountsTheReportsModulo := by
  intro cs s hin hm hb hreport
  rw [runFor_samples hin, counterRun_wrap hm hb (.inr hreport), wrapInto, fmod_eq]
  exact ⟨_, rfl⟩

end Sys2Proof.Machine
end

section
/-!
PROOF. Proofs/Dispatch.lean: what one step does with what is presented (42_top_commands.md R115, R122, R123, logs 4,
6, 16), and the commands of format N (R115, R118 to R120).
-/

namespace Sys2Proof

/-- R49: a supplied argument fits where its port carries a W-bit word. -/
theorem operandFits_supplied {w : Width} {x : Int} (hx : w.represents x = true) (we : Bool) :
    operandFits w (supplied we x) = true := by
  cases we with
  | false => rfl
  | true => exact hx

/-- R49: ports that carry W-bit words give a command whose operands fit. -/
theorem wellFormed_of_decode {c : Command} {i : Instr} {w : Width} (h : decode c = .ok i)
    (hv : w.represents c.cfgValue = true) (hn : w.represents c.cfgMin = true)
    (hx : w.represents c.cfgMax = true) : i.wellFormed w = true := by
  cases i with
  | cfg v n x r m =>
    rw [decode_of_op_cfg ((op_eq_of_decode h).trans (encode_cfg_op v n x r m))] at h
    cases h
    simp [Instr.wellFormed, operandFits_supplied, hv, hn, hx]
  | _ => rfl

/-- R46: the decoder's answer for a table word is that for its presentation with the ports at zero. -/
theorem decode_of_decodeTableWord {nbits w : Nat} {i : Instr} (h : decodeTableWord nbits w = some i) :
    decode (.ofWord (BitVec.ofNat 8 w)) = .ok i := by
  unfold decodeTableWord at h
  split at h
  · cases hd : decode (.ofWord (BitVec.ofNat 8 w)) with
    | error e => rw [hd] at h; cases h
    | ok j => rw [hd] at h; cases h; rfl
  · cases h

end Sys2Proof

namespace Sys2Proof.Machine

/-- R123: a step on a presentation that decodes performs the command, or refuses operands no port can carry
(log 6). -/
theorem step_of_decoded {s : State} {c : Command} {rest : List Input} {i : Instr}
    (hin : s.inputs = .command c :: rest) (hd : decode c = .ok i) :
    step s = if i.wellFormed s.params.width then exec i (s.setInputs rest) else .refused .operandNotRepresentable := by
  rw [step_of_presented hin, runInput, runCommand, hd]
  rfl

/-- Settles O9: the first case of `step_of_decoded`. -/
theorem stepRunsTheDecodedCommand : Obligations.StepRunsTheDecodedCommand := by
  intro s c rest i hin hd hw
  rw [step_of_decoded hin hd, if_pos hw]
  rfl

/-- Settles O10: `raise` writes the response only. -/
theorem reservedWordIsRejected : Obligations.ReservedWordIsRejected := by
  intro s c rest e hin hd
  rw [step_of_presented hin, runInput, runCommand, hd]
  rfl

/-- Settles O12: the idle step by `step_of_idle`, the operand by the second case of `step_of_decoded`. -/
theorem unpresentableInputs : Obligations.UnpresentableInputs := by
  refine ⟨fun s => step_of_idle, fun s c rest i hin hd hw => ?_⟩
  rw [step_of_decoded hin hd, if_neg (Bool.eq_false_iff.1 hw)]

/-- Settles O13: the word is the next input, and its ports at zero fit every width. -/
theorem fetchWordIsRunNext : Obligations.FetchWordIsRunNext := by
  intro s nbits w i h
  have hd := decode_of_decodeTableWord h
  have hzero := s.params.width.represents_zero
  exact stepRunsTheDecodedCommand (s.withFetchWord nbits w) _ s.inputs i rfl hd
    (wellFormed_of_decode hd hzero hzero hzero)

/-- Settles O32: the meaning of NOP. -/
theorem nopWritesNothing : Obligations.NopWritesNothing := fun _ => rfl

/-- Settles O33: the meaning of READ. -/
theorem readAnswersTheValue : Obligations.ReadAnswersTheValue := fun _ => rfl

/-- Settles O34: the meaning of DRST. -/
theorem drstPutsTheDecoderToStart : Obligations.DrstPutsTheDecoderToStart := fun _ => rfl

/-- Settles O35: the meaning of CRST. -/
theorem crstPutsTheValueToZero : Obligations.CrstPutsTheValueToZero := fun _ => rfl

/-- R121, R49: the word 0xC0 is the CFG that supplies nothing, whatever the ports carry. -/
theorem decode_of_cw_eq_C0 {c : Command} (h : c.cw = 0xC0#8) : decode c = .ok cfgNone := by
  have hop : c.op = 0b110#3 := by rw [Command.op, h]; rfl
  rw [decode_of_op_cfg hop, h]
  rfl

/-- Settles O50: CFG that supplies nothing merges to the registers as they are, whose bounds R18 keeps in order, and
so commits them. -/
theorem cfgNoneOnlyResetsTheDecoder : Obligations.CfgNoneOnlyResetsTheDecoder := by
  rintro s c rest ⟨-, -, -, -, hb⟩ hcw hin
  rw [stepRunsTheDecodedCommand s c rest cfgNone hin (decode_of_cw_eq_C0 hcw) rfl]
  exact acceptedCfgCommitsTheMergedConfiguration none none none none none { s with inputs := rest } s.mode
    (.inl ⟨rfl, rfl⟩) hb

end Sys2Proof.Machine
end

section
/-!
PROOF. Proofs/StepCommand.lean: STEP as the decoder's step and the apply of its direction (42_top_commands.md R116).
-/

namespace Sys2Proof.Machine

/-- R116: STEP is C.APPLY of the table's direction, then the table's next state. -/
theorem exec_step_eq_answer (a b : Bool) (s : State) :
    exec (.step a b) s =
      answer ((cApply (qDir s.state (sampleCode a b)) s).map fun t => t.setState (qNext s.state (sampleCode a b)))
        (dirResponse (qDir s.state (sampleCode a b))) := by
  rw [exec, execStep, qStep_eq, cApply_setState]
  rfl

/-- Settles O45: both commands answer what one C.APPLY gives. -/
theorem stepIsDecodeThenApply : Obligations.StepIsDecodeThenApply := by
  intro a b s
  rw [exec_step_eq_answer, exec, execApply]
  cases cApply (qDir s.state (sampleCode a b)) s with
  | ok t => rfl
  | error r => rfl

/-- R47: the rest code is both levels high. -/
theorem sampleCode_eq_rest_iff (a b : Bool) : sampleCode a b = 0b11#2 ↔ a = true ∧ b = true := by
  revert a b; decide

/-- Settles O46: off the two flagged pairs the direction is None, whose C.APPLY writes nothing. -/
theorem stepWithoutReportMovesOnlyTheState : Obligations.StepWithoutReportMovesOnlyTheState := by
  intro a b s hoff
  have hnone : qDir s.state (sampleCode a b) = .none := by
    by_contra hdir
    rw [← Ne, qDir_ne_none_iff, ← or_and_right, sampleCode_eq_rest_iff] at hdir
    exact hoff ⟨hdir.2.1, hdir.2.2, hdir.1⟩
  rw [exec_step_eq_answer, hnone, cApply_none]
  rfl

/-- R116: a STEP that reports stores what the policy gives for the increment of its direction. -/
theorem exec_step_of_policyValue {a b : Bool} {s : State} {d : Direction} {q : QState} {v : Int} (hd : d ≠ .none)
    (hdir : qDir s.state (sampleCode a b) = d) (hnext : qNext s.state (sampleCode a b) = q)
    (hv : policyValue s ((if d = .clockwise then 1 else -1) * (if s.rev then -1 else 1)) = .ok v) :
    exec (.step a b) s = .next { s with state := q, value := v, resp := some ⟨d, .ok, 0⟩ } := by
  rw [exec_step_eq_answer, hdir, hnext, cApply_of_policyValue (increment_of_ne_none hd s.rev) hv]
  rfl

/-- Settles O47: the pair is one of the two flagged ones, and the policy of each mode gives the value. -/
theorem reportingStepMovesTheCounter : Obligations.ReportingStepMovesTheCounter := by
  rintro s d _ hpair rfl hfits hb
  have hdir : qDir s.state (sampleCode true true) = d ∧ d ≠ .none := by
    rcases hpair with ⟨hq, rfl⟩ | ⟨hq, rfl⟩ <;> rw [hq] <;> decide
  refine exec_step_of_policyValue hdir.2 hdir.1 (entryNext_table_rest s.state) ?_
  cases hm : s.mode with
  | unbounded => exact policyValue_of_unbounded hm (hfits hm)
  | wrap => rw [policyValue_of_wrap hm (hb (by simp [hm])), wrapInto, fmod_eq]
  | bounded => exact policyValue_of_bounded hm (hb (by simp [hm])) _

/-- Settles O55: `runFor_samples`, by whether the counter's run is refused. -/
theorem sampleRunsAreDecoderThenCounter : Obligations.SampleRunsAreDecoderThenCounter := by
  intro cs s hin
  have hrun := runFor_samples hin
  cases hcount : counterRun (qDirs s.state cs) s with
  | ok u => rw [hcount] at hrun; exact hrun
  | error e => rw [hcount] at hrun; exact hrun

end Sys2Proof.Machine
end

section
/-!
PROOF. Proofs/Rejection.lean: the effect of a rejected command (60_exceptions.md R136) and what follows it (R137).
-/

namespace Sys2Proof.Machine

/-- R53, R136: an answered command reports OK, or it is rejected and leaves all but the response as it was. -/
theorem exec_ok_or_rejected {i : Instr} {s t : State} (h : exec i s = .next t) :
    (∃ p, t.resp = some p ∧ p.err = .ok) ∨ ∃ e, t = s.respond (errResponse e) := by
  cases i with
  | nop => cases h; exact .inl ⟨_, rfl, rfl⟩
  | read => cases h; exact .inl ⟨_, rfl, rfl⟩
  | drst => cases h; exact .inl ⟨_, rfl, rfl⟩
  | crst => cases h; exact .inl ⟨_, rfl, rfl⟩
  | step a b =>
    obtain ⟨u, -, rfl⟩ := (execStep_eq_next_iff a b s t).1 h
    exact .inl ⟨_, rfl, rfl⟩
  | apply d =>
    obtain ⟨u, -, rfl⟩ := (execApply_eq_next_iff d s t).1 h
    exact .inl ⟨_, rfl, rfl⟩
  | cfg v n x r m =>
    rcases exec_cfg_effect h with ⟨mode, -, rfl⟩ | hrejected
    · exact .inl ⟨_, rfl, rfl⟩
    · exact .inr hrejected

/-- R122, R136: the same of a step on a presented command, reserved words included. -/
theorem step_ok_or_rejected {s t : State} {c : Command} {rest : List Input} (hin : s.inputs = .command c :: rest)
    (h : step s = .next t) :
    (∃ p, t.resp = some p ∧ p.err = .ok) ∨ ∃ e, t = (s.setInputs rest).respond (errResponse e) := by
  cases hd : decode c with
  | error e =>
    rw [reservedWordIsRejected s c rest e hin hd] at h
    cases h
    exact .inr ⟨.errCmd, rfl⟩
  | ok i =>
    rw [step_of_decoded hin hd] at h
    split at h
    · exact exec_ok_or_rejected h
    · cases h

/-- Settles O16: an `err` other than OK leaves the second case of `step_ok_or_rejected`. -/
theorem rejectionChangesNoRegister : Obligations.RejectionChangesNoRegister := by
  intro s t c rest r hin h hr herr
  rcases step_ok_or_rejected hin h with ⟨p, hp, hok⟩ | ⟨e, rfl⟩
  · obtain rfl : p = r := Option.some.inj (hp.symm.trans hr)
    exact absurd hok herr
  · cases hr
    rfl

/-- R23: a run of at least one step does not depend on the response it starts with. -/
theorem runFor_succ_resp (k : Nat) (s : State) (r : Option Response) :
    runFor (k + 1) { s with resp := r } = runFor (k + 1) s := by
  rw [runFor_succ, runFor_succ, responsesAreTransient]

/-- R115, R123: a step on a presented NOP takes it and answers OK. -/
theorem step_presented_nop (s : State) (rest : List Input) :
    step { s with inputs := .command (encode .nop) :: rest } =
      .next { s with inputs := rest, resp := some okResponse } := rfl

/-- Settles O17: the rejection and the NOP lead to states that differ in the response only, which the second step
does not see. -/
theorem rejectionIsFollowedAsANop : Obligations.RejectionIsFollowedAsANop := by
  intro s t c rest r k hin h hr herr
  have ht := rejectionChangesNoRegister s t c rest r hin h hr herr
  calc runFor (k + 2) s
      = runFor (k + 1) t := by rw [runFor_succ, h]
    _ = runFor (k + 1) { s with inputs := rest } := by rw [ht]; exact runFor_succ_resp k { s with inputs := rest } _
    _ = runFor (k + 1) { s with inputs := rest, resp := some okResponse } :=
        (runFor_succ_resp k { s with inputs := rest } _).symm
    _ = runFor (k + 2) { s with inputs := .command (encode .nop) :: rest } := by
        rw [runFor_succ (k + 1), step_presented_nop]

end Sys2Proof.Machine
end

section
/-!
PROOF. Proofs/Reset.lean: what a repeated sample does (70_reset_and_hazards.md R156), the partial detent that DRST
and an accepted CFG discard (R157), and hardware reset (R150, R151).
-/

namespace Sys2Proof.Machine

/-- R156: the clockwise state that shows a code stays where it is on that code. -/
theorem qNext_cwShowing_self (c : Code) : qNext (cwShowing c) c = cwShowing c := by revert c; decide

/-- R156: the counter-clockwise state does too, by the mirror image. -/
theorem qNext_ccwShowing_self (c : Code) : qNext (ccwShowing c) c = ccwShowing c := by
  have hmirror := qNext_mirror (cwShowing (swapChannels c)) (swapChannels c)
  rwa [swapChannels_swapChannels, qNext_cwShowing_self] at hmirror

/-- R156: a code that led to a state other than START does not move the decoder again. -/
theorem qNext_qNext_self {q : QState} {c : Code} (h : qNext q c ≠ .start) : qNext (qNext q c) c = qNext q c := by
  rcases qNext_shows q c with hq | hq | hq
  · exact absurd hq h
  · rw [hq, qNext_cwShowing_self]
  · rw [hq, qNext_ccwShowing_self]

/-- R84: a code that leads to a state other than START is not 11. -/
theorem ne_rest_of_qNext_ne_start {q : QState} {c : Code} (h : qNext q c ≠ .start) : c ≠ 0b11#2 := by
  rintro rfl
  exact h (entryNext_table_rest q)

/-- R116: a STEP that reports nothing moves the decoder only. -/
theorem exec_step_of_silent {a b : Bool} {s : State} (h : qDir s.state (sampleCode a b) = .none) :
    exec (.step a b) s =
      .next { s with state := qNext s.state (sampleCode a b), resp := some ⟨.none, .ok, 0⟩ } := by
  rw [exec_step_eq_answer, h, cApply_none]
  rfl

/-- Settles O22: outside START the code was not 11, so its repetition reports nothing, and by `qNext_qNext_self` it
does not move the decoder. -/
theorem repeatedSampleIsHarmless : Obligations.RepeatedSampleIsHarmless := by
  intro a b s t h hne
  have ht := exec_step_state h
  have hstay : qNext t.state (sampleCode a b) = t.state := by
    rw [ht] at hne ⊢
    exact qNext_qNext_self hne
  have hsilent : qDir t.state (sampleCode a b) = .none :=
    qDir_of_ne_rest _ (ne_rest_of_qNext_ne_start (ht ▸ hne))
  rw [exec_step_of_silent hsilent, hstay]

/-- R82, R157: three codes are too few for a report from START. -/
theorem qDirs_start_of_length_le_three {cs : List Code} (hlen : cs.length ≤ 3) :
    ∀ d ∈ qDirs .start cs, d = .none := by
  by_contra hreport
  push Not at hreport
  have hmem := mem_shortestReports (q := .start) (by simp only [fewestCodes]; omega) hreport
  have hfour : ∀ w ∈ shortestReports .start, w.length = 4 := by decide
  exact absurd hlen (by rw [hfour cs hmem]; decide)

/-- R101: a rejected configuration has an error code other than OK. -/
theorem validate_error_ne_ok {c : Merged} {e : ErrCode} (h : validate c = .error e) : e ≠ .ok := by
  unfold validate at h
  split at h
  · cases h
    decide
  · split at h <;> cases h
    decide

/-- R102, R119: DRST, and a CFG that answers OK, leave the decoder in START. -/
theorem exec_state_of_reconfiguration {i : Instr} {s t : State} (hi : i = .drst ∨ ∃ v n x r m, i = .cfg v n x r m)
    (h : exec i s = .next t) (hok : t.resp = some ⟨.none, .ok, 0⟩) : t.state = .start := by
  rcases hi with rfl | ⟨v, n, x, r, m, rfl⟩
  · cases h
    rfl
  · rcases execCfg_cases v n x r m s with ⟨mode, -, he⟩ | ⟨e, hv, he⟩ <;> rw [exec, he] at h <;> cases h
    · rfl
    · exact absurd (congrArg Response.err (Option.some.inj hok)) (validate_error_ne_ok hv)

/-- Settles O31: from START at most three codes are silent, and `runFor_silent_samples` gives the run. -/
theorem reconfigurationDiscardsThePartialDetent : Obligations.ReconfigurationDiscardsThePartialDetent := by
  intro i s t cs hi h hok hin hlen
  have hstart := exec_state_of_reconfiguration hi h hok
  have hsilent := qDirs_start_of_length_le_three hlen
  refine ⟨?_, hsilent⟩
  rw [← hstart] at hsilent ⊢
  have hrun := runFor_silent_samples (s := t) (rest := []) 0 (by simpa [(exec_frame h).2] using hin) hsilent
  rw [hok, ite_self] at hrun
  exact hrun

/-- Settles O11: the step takes the reset input and gives every register its construction parameter. -/
theorem hardwareResetGivesTheTuple : Obligations.HardwareResetGivesTheTuple := by
  intro s rest hin
  rw [step_of_presented hin]
  rfl

/-- R151: the state after reset of a valid parameter set is valid, since its registers are the parameters. -/
theorem validState_construct {p : Params} (hp : p.Valid) : ValidState (State.construct p) :=
  ⟨hp, hp.2⟩

/-- Settles O53: `State.reset` is the state after reset of the standard parameters, which are valid. -/
theorem invariantHoldsAtReset : Obligations.InvariantHoldsAtReset :=
  ⟨fun _ => validState_construct, validState_construct (by decide)⟩

end Sys2Proof.Machine
end

section
/-!
PROOF. Proofs/RoundTrip.lean: encoding and decoding undo each other (30_encoding.md R45 to R49).
-/

namespace Sys2Proof

/-- R49: a port with its argument's write-enable supplies the argument again, whatever it carries without one. -/
theorem supplied_isSome_getD {α : Type} (o : Option α) (x : α) : supplied o.isSome (o.getD x) = o := by
  cases o <;> rfl

/-- R49: an argument is supplied exactly when its write-enable is 1. -/
@[simp] theorem isSome_supplied {α : Type} (we : Bool) (x : α) : (supplied we x).isSome = we := by
  cases we <;> rfl

/-- R49: the five write-enables laid side by side, that of `value` first. -/
def writeEnables (v n x r m : Bool) : BitVec 5 :=
  BitVec.ofBool v ++ BitVec.ofBool n ++ BitVec.ofBool x ++ BitVec.ofBool r ++ BitVec.ofBool m

/-- R49: the word of CFG is its operation code and the write-enables of the supplied arguments. -/
theorem encode_cfg_cw (v n x : Option Int) (r : Option Bool) (m : Option (BitVec 2)) :
    (encode (.cfg v n x r m)).cw =
      opWord 0b110#3 (writeEnables v.isSome n.isSome x.isSome r.isSome m.isSome) := rfl

/-- R49: the write-enables stand in bits 4:0 of a word. -/
theorem getLsbD_opWord_writeEnables (o : BitVec 3) (v n x r m : Bool) :
    let w := opWord o (writeEnables v n x r m)
    w.getLsbD 4 = v ∧ w.getLsbD 3 = n ∧ w.getLsbD 2 = x ∧ w.getLsbD 1 = r ∧ w.getLsbD 0 = m := by
  revert o v n x r m; decide

/-- R49: bits 4:0 of a word are the write-enables read from it. -/
theorem writeEnables_getLsbD (w : CmdWord) :
    writeEnables (w.getLsbD 4) (w.getLsbD 3) (w.getLsbD 2) (w.getLsbD 1) (w.getLsbD 0) = w.extractLsb' 0 5 := by
  revert w; decide

/-- R47: bits 1:0 of a word are the two levels of a STEP. -/
theorem ofBool_getLsbD_lower (c : Command) :
    0#3 ++ BitVec.ofBool (c.cw.getLsbD 1) ++ BitVec.ofBool (c.cw.getLsbD 0) = 0#3 ++ c.lower := by
  have hlow : ∀ l : BitVec 2, 0#3 ++ BitVec.ofBool (l.getLsbD 1) ++ BitVec.ofBool (l.getLsbD 0) = 0#3 ++ l := by decide
  simpa [Command.lower] using hlow c.lower

/-- R48: a code is read as a direction exactly when it is that direction's code. -/
theorem Direction.ofCode_eq_some_iff (l : BitVec 2) (d : Direction) : Direction.ofCode l = some d ↔ l = d.code := by
  revert l; cases d <;> decide

/-- R45: a word is its operation code and bits 4:0. -/
theorem Command.opWord_op (c : Command) : opWord c.op (c.cw.extractLsb' 0 5) = c.cw :=
  BitVec.extractLsb'_append_extractLsb'

/-- R45: bits 4:0 of a word are its other two fields. -/
theorem Command.upper_append_lower (c : Command) : c.upper ++ c.lower = c.cw.extractLsb' 0 5 :=
  BitVec.extractLsb'_append_extractLsb'_eq_extractLsb' rfl

/-- R45: a word of format N, S or D, from its fields. -/
theorem Command.opWord_of_upper_eq_zero {c : Command} (hu : c.upper = 0#3) : opWord c.op (0#3 ++ c.lower) = c.cw := by
  rw [← hu, c.upper_append_lower, c.opWord_op]

/-- R49: CFG decodes back from its presentation: each write-enable is read where it was laid, and supplies the
argument it was laid for. -/
theorem decode_encode_cfg (v n x : Option Int) (r : Option Bool) (m : Option (BitVec 2)) :
    decode (encode (.cfg v n x r m)) = .ok (.cfg v n x r m) := by
  rw [decode_of_op_cfg (encode_cfg_op v n x r m)]
  obtain ⟨hv, hn, hx, hr, hm⟩ := getLsbD_opWord_writeEnables 0b110#3 v.isSome n.isSome x.isSome r.isSome m.isSome
  rw [encode_cfg_cw, hv, hn, hx, hr, hm]
  simp only [encode, supplied_isSome_getD]

/-- Settles O7: CFG by `decode_encode_cfg`, every other command by `decode_encode_of_not_cfg`. -/
theorem encodedCommandsDecodeBack : Obligations.EncodedCommandsDecodeBack := by
  intro i
  by_cases hc : ∃ v n x r m, i = .cfg v n x r m
  · obtain ⟨v, n, x, r, m, rfl⟩ := hc
    exact decode_encode_cfg v n x r m
  · push Not at hc
    exact Machine.decode_encode_of_not_cfg hc

/-- Settles O8: one format after the other, the fields the decoder checks or reads are those the command is laid out
with. -/
theorem decodedWordsReencode : Obligations.DecodedWordsReencode := by
  intro c i h
  rcases decode_cases c with ⟨j, hj, hd⟩ | ⟨hop, hd⟩ | ⟨hop, hd⟩ | ⟨hop, -⟩ | ⟨-, hd⟩
  · obtain ⟨hu, hl, rfl⟩ := (decodeNoOperand_eq_ok_iff c j i).1 (hd ▸ h)
    have hcw := c.opWord_of_upper_eq_zero hu
    rcases hj with ⟨hop, rfl⟩ | ⟨hop, rfl⟩ | ⟨hop, rfl⟩ | ⟨hop, rfl⟩ <;> rw [hop, hl] at hcw <;> exact hcw
  · obtain ⟨hu, ⟨⟩⟩ := (decodeLower_eq_ok_iff c _ i).1 (hd ▸ h)
    have hcw := c.opWord_of_upper_eq_zero hu
    rwa [hop, ← ofBool_getLsbD_lower] at hcw
  · obtain ⟨hu, hl⟩ := (decodeLower_eq_ok_iff c _ i).1 (hd ▸ h)
    obtain ⟨d, hcode, rfl⟩ := (decodeDirection_eq_ok_iff _ i).1 hl
    have hcw := c.opWord_of_upper_eq_zero hu
    rwa [hop, (Direction.ofCode_eq_some_iff _ d).1 hcode] at hcw
  · obtain rfl : _ = i := Except.ok.inj ((decode_of_op_cfg hop).symm.trans h)
    have hcw := c.opWord_op
    rw [hop, ← writeEnables_getLsbD] at hcw
    simpa only [encode_cfg_cw, isSome_supplied] using hcw
  · rw [hd] at h
    cases h

end Sys2Proof

namespace Sys2Proof.Machine

/-- Settles O14: the step takes the first input, if there is one, and what it performs leaves the inputs alone. -/
theorem stepTakesOneInput : Obligations.StepTakesOneInput := by
  intro s t h
  rcases step_cases s with ⟨hin, he⟩ | ⟨rest, hin, he⟩ | ⟨c, rest, e, hin, -, he⟩ | ⟨c, rest, i, hin, -, -, he⟩ |
    ⟨c, rest, i, -, -, -, he⟩ <;> rw [he] at h
  · rw [(exec_frame h).2, hin, List.tail_nil]
  · cases h
    rw [hin, hardwareReset_inputs, State.setInputs_inputs, List.tail_cons]
  · cases h
    rw [hin, State.respond_inputs, State.setInputs_inputs, List.tail_cons]
  · rw [(exec_frame h).2, hin, State.setInputs_inputs, List.tail_cons]
  · cases h

end Sys2Proof.Machine
end
